-- ==== Sys2Proof/Word.lean ====
section
/-! DEFINITION. The two word types of the Jelite 6502 core: every register and memory byte is 8 bits wide, every address and the
program counter 16 bits (spec/00_scope.md R6). Bit-field and byte-order helpers are in Machine/Bits.lean. -/

namespace Sys2Proof

/-- `u8` of spec/00_scope.md section 4: a register, a status byte or one byte of memory. -/
abbrev Byte := BitVec 8

/-- `u16` of spec/00_scope.md section 4: an address; arithmetic on it wraps modulo 2^16 (spec/20_memory.md R29). -/
abbrev Addr := BitVec 16

end Sys2Proof
end

