-- ==== Sys2Proof/Machine/Bits.lean ====
section
/-! DEFINITION. The bit-field, extension and byte-order helpers of spec/00_scope.md section 4: `lo`, `hi`, `page`, the
concatenation `{h, l}`, `zext_16` and `sext_16`. -/

namespace Sys2Proof

/-- `lo(v) = v[7:0]`. -/
def lo (w : Addr) : Byte := w.extractLsb' 0 8

/-- `hi(v) = v[15:8]`. -/
def hi (w : Addr) : Byte := w.extractLsb' 8 8

/-- `page(a) = a[15:8]`: two addresses are in one page when this agrees. -/
def page (a : Addr) : Byte := hi a

/-- `{h, l}`: the word whose high byte is `h`. -/
def word (h l : Byte) : Addr := h ++ l

/-- `zext_16(v)`. -/
def zext16 (b : Byte) : Addr := b.setWidth 16

/-- `sext_16(v)`: bit 7 copied into bits 15 to 8. -/
def sext16 (b : Byte) : Addr := b.signExtend 16

end Sys2Proof
end

