-- ==== Sys2Proof/Machine/Modes.lean ====
section
/-! DEFINITION. The 13 addressing modes, the operand an instruction carries in each of them, and the 56 execution handlers
(spec/20_memory.md section 7, spec/30_encoding.md R55 to R60). -/

namespace Sys2Proof

/-- The mode tags of spec/20_memory.md R40 to R52. -/
inductive Mode
  | imp | acc | imm | zp | zpx | zpy | rel | abs | absx | absy | ind | indx | indy
  deriving DecidableEq, Repr

/-- An addressing mode with the operand bytes it consumes, assembled as spec/30_encoding.md R56 says: one byte, or the
little-endian word of two. -/
inductive Operand
  | imp
  | acc
  | imm (b : Byte)
  | zp (b : Byte)
  | zpx (b : Byte)
  | zpy (b : Byte)
  | rel (d : Byte)
  | abs (w : Addr)
  | absx (w : Addr)
  | absy (w : Addr)
  | ind (w : Addr)
  | indx (b : Byte)
  | indy (b : Byte)
  deriving DecidableEq, Repr

/-- The execution handlers: one for each of the 56 documented mnemonics (R59). -/
inductive Handler
  | adc | sbc | and | ora | eor | asl | lsr | rol | ror
  | inc | dec | inx | iny | dex | dey | cmp | cpx | cpy | bit
  | bcc | bcs | beq | bne | bmi | bpl | bvc | bvs
  | pha | php | pla | plp | jsr | rts | rti | brk
  | tax | tay | txa | tya | tsx | txs
  | sec | clc | sei | cli | sed | cld | clv | nop
  | lda | ldx | ldy | sta | stx | sty | jmp
  deriving DecidableEq, Repr

/-- `operand_width`: how many operand bytes the mode's resolver consumes (R55, R60). -/
def Mode.width : Mode → Nat
  | .imp | .acc => 0
  | .imm | .zp | .zpx | .zpy | .rel | .indx | .indy => 1
  | .abs | .absx | .absy | .ind => 2

/-- The mode of an operand. -/
def Operand.mode : Operand → Mode
  | .imp => .imp
  | .acc => .acc
  | .imm _ => .imm
  | .zp _ => .zp
  | .zpx _ => .zpx
  | .zpy _ => .zpy
  | .rel _ => .rel
  | .abs _ => .abs
  | .absx _ => .absx
  | .absy _ => .absy
  | .ind _ => .ind
  | .indx _ => .indx
  | .indy _ => .indy

/-- The number of operand bytes of the instruction the operand belongs to. -/
def Operand.width (o : Operand) : Nat := o.mode.width

end Sys2Proof
end

