-- ==== Sys2Proof/Machine/Catalog.lean ====
section
/-! DEFINITION. The Instruction Catalog: 256 rows, one per opcode byte (spec/30_encoding.md R59, R61), and the lists of
undocumented bytes (R63) and of the no-op bytes that mark the page-crossing penalty (R66). The source lists four rows only
(0xA9, 0x4C, 0x69, 0x90); the others are the spec's own choice, the NMOS 6502 map (D16, D17; log entry 11). -/

namespace Sys2Proof

/-- A catalog entry: `mnemonic` and `operand_width` of R59 are the handler's name and `mode.width`. -/
structure Row where
  handler : Handler
  mode : Mode
  baseCycles : Nat
  deriving DecidableEq, Repr

/-- Row 0x of the grid of R61. -/
def catalog0 : List Row := [
  ⟨.brk, .imp, 7⟩, ⟨.ora, .indx, 6⟩, ⟨.nop, .imp, 2⟩, ⟨.nop, .indx, 8⟩,
  ⟨.nop, .zp, 3⟩, ⟨.ora, .zp, 3⟩, ⟨.asl, .zp, 5⟩, ⟨.nop, .zp, 5⟩,
  ⟨.php, .imp, 3⟩, ⟨.ora, .imm, 2⟩, ⟨.asl, .acc, 2⟩, ⟨.nop, .imm, 2⟩,
  ⟨.nop, .abs, 4⟩, ⟨.ora, .abs, 4⟩, ⟨.asl, .abs, 6⟩, ⟨.nop, .abs, 6⟩]

/-- Row 1x of the grid of R61. -/
def catalog1 : List Row := [
  ⟨.bpl, .rel, 2⟩, ⟨.ora, .indy, 5⟩, ⟨.nop, .imp, 2⟩, ⟨.nop, .indy, 8⟩,
  ⟨.nop, .zpx, 4⟩, ⟨.ora, .zpx, 4⟩, ⟨.asl, .zpx, 6⟩, ⟨.nop, .zpx, 6⟩,
  ⟨.clc, .imp, 2⟩, ⟨.ora, .absy, 4⟩, ⟨.nop, .imp, 2⟩, ⟨.nop, .absy, 7⟩,
  ⟨.nop, .absx, 4⟩, ⟨.ora, .absx, 4⟩, ⟨.asl, .absx, 7⟩, ⟨.nop, .absx, 7⟩]

/-- Row 2x of the grid of R61. -/
def catalog2 : List Row := [
  ⟨.jsr, .abs, 6⟩, ⟨.and, .indx, 6⟩, ⟨.nop, .imp, 2⟩, ⟨.nop, .indx, 8⟩,
  ⟨.bit, .zp, 3⟩, ⟨.and, .zp, 3⟩, ⟨.rol, .zp, 5⟩, ⟨.nop, .zp, 5⟩,
  ⟨.plp, .imp, 4⟩, ⟨.and, .imm, 2⟩, ⟨.rol, .acc, 2⟩, ⟨.nop, .imm, 2⟩,
  ⟨.bit, .abs, 4⟩, ⟨.and, .abs, 4⟩, ⟨.rol, .abs, 6⟩, ⟨.nop, .abs, 6⟩]

/-- Row 3x of the grid of R61. -/
def catalog3 : List Row := [
  ⟨.bmi, .rel, 2⟩, ⟨.and, .indy, 5⟩, ⟨.nop, .imp, 2⟩, ⟨.nop, .indy, 8⟩,
  ⟨.nop, .zpx, 4⟩, ⟨.and, .zpx, 4⟩, ⟨.rol, .zpx, 6⟩, ⟨.nop, .zpx, 6⟩,
  ⟨.sec, .imp, 2⟩, ⟨.and, .absy, 4⟩, ⟨.nop, .imp, 2⟩, ⟨.nop, .absy, 7⟩,
  ⟨.nop, .absx, 4⟩, ⟨.and, .absx, 4⟩, ⟨.rol, .absx, 7⟩, ⟨.nop, .absx, 7⟩]

/-- Row 4x of the grid of R61. -/
def catalog4 : List Row := [
  ⟨.rti, .imp, 6⟩, ⟨.eor, .indx, 6⟩, ⟨.nop, .imp, 2⟩, ⟨.nop, .indx, 8⟩,
  ⟨.nop, .zp, 3⟩, ⟨.eor, .zp, 3⟩, ⟨.lsr, .zp, 5⟩, ⟨.nop, .zp, 5⟩,
  ⟨.pha, .imp, 3⟩, ⟨.eor, .imm, 2⟩, ⟨.lsr, .acc, 2⟩, ⟨.nop, .imm, 2⟩,
  ⟨.jmp, .abs, 3⟩, ⟨.eor, .abs, 4⟩, ⟨.lsr, .abs, 6⟩, ⟨.nop, .abs, 6⟩]

/-- Row 5x of the grid of R61. -/
def catalog5 : List Row := [
  ⟨.bvc, .rel, 2⟩, ⟨.eor, .indy, 5⟩, ⟨.nop, .imp, 2⟩, ⟨.nop, .indy, 8⟩,
  ⟨.nop, .zpx, 4⟩, ⟨.eor, .zpx, 4⟩, ⟨.lsr, .zpx, 6⟩, ⟨.nop, .zpx, 6⟩,
  ⟨.cli, .imp, 2⟩, ⟨.eor, .absy, 4⟩, ⟨.nop, .imp, 2⟩, ⟨.nop, .absy, 7⟩,
  ⟨.nop, .absx, 4⟩, ⟨.eor, .absx, 4⟩, ⟨.lsr, .absx, 7⟩, ⟨.nop, .absx, 7⟩]

/-- Row 6x of the grid of R61. -/
def catalog6 : List Row := [
  ⟨.rts, .imp, 6⟩, ⟨.adc, .indx, 6⟩, ⟨.nop, .imp, 2⟩, ⟨.nop, .indx, 8⟩,
  ⟨.nop, .zp, 3⟩, ⟨.adc, .zp, 3⟩, ⟨.ror, .zp, 5⟩, ⟨.nop, .zp, 5⟩,
  ⟨.pla, .imp, 4⟩, ⟨.adc, .imm, 2⟩, ⟨.ror, .acc, 2⟩, ⟨.nop, .imm, 2⟩,
  ⟨.jmp, .ind, 5⟩, ⟨.adc, .abs, 4⟩, ⟨.ror, .abs, 6⟩, ⟨.nop, .abs, 6⟩]

/-- Row 7x of the grid of R61. -/
def catalog7 : List Row := [
  ⟨.bvs, .rel, 2⟩, ⟨.adc, .indy, 5⟩, ⟨.nop, .imp, 2⟩, ⟨.nop, .indy, 8⟩,
  ⟨.nop, .zpx, 4⟩, ⟨.adc, .zpx, 4⟩, ⟨.ror, .zpx, 6⟩, ⟨.nop, .zpx, 6⟩,
  ⟨.sei, .imp, 2⟩, ⟨.adc, .absy, 4⟩, ⟨.nop, .imp, 2⟩, ⟨.nop, .absy, 7⟩,
  ⟨.nop, .absx, 4⟩, ⟨.adc, .absx, 4⟩, ⟨.ror, .absx, 7⟩, ⟨.nop, .absx, 7⟩]

/-- Row 8x of the grid of R61. -/
def catalog8 : List Row := [
  ⟨.nop, .imm, 2⟩, ⟨.sta, .indx, 6⟩, ⟨.nop, .imm, 2⟩, ⟨.nop, .indx, 6⟩,
  ⟨.sty, .zp, 3⟩, ⟨.sta, .zp, 3⟩, ⟨.stx, .zp, 3⟩, ⟨.nop, .zp, 3⟩,
  ⟨.dey, .imp, 2⟩, ⟨.nop, .imm, 2⟩, ⟨.txa, .imp, 2⟩, ⟨.nop, .imm, 2⟩,
  ⟨.sty, .abs, 4⟩, ⟨.sta, .abs, 4⟩, ⟨.stx, .abs, 4⟩, ⟨.nop, .abs, 4⟩]

/-- Row 9x of the grid of R61. -/
def catalog9 : List Row := [
  ⟨.bcc, .rel, 2⟩, ⟨.sta, .indy, 6⟩, ⟨.nop, .imp, 2⟩, ⟨.nop, .indy, 6⟩,
  ⟨.sty, .zpx, 4⟩, ⟨.sta, .zpx, 4⟩, ⟨.stx, .zpy, 4⟩, ⟨.nop, .zpy, 4⟩,
  ⟨.tya, .imp, 2⟩, ⟨.sta, .absy, 5⟩, ⟨.txs, .imp, 2⟩, ⟨.nop, .absy, 5⟩,
  ⟨.nop, .absx, 5⟩, ⟨.sta, .absx, 5⟩, ⟨.nop, .absy, 5⟩, ⟨.nop, .absy, 5⟩]

/-- Row Ax of the grid of R61. -/
def catalogA : List Row := [
  ⟨.ldy, .imm, 2⟩, ⟨.lda, .indx, 6⟩, ⟨.ldx, .imm, 2⟩, ⟨.nop, .indx, 6⟩,
  ⟨.ldy, .zp, 3⟩, ⟨.lda, .zp, 3⟩, ⟨.ldx, .zp, 3⟩, ⟨.nop, .zp, 3⟩,
  ⟨.tay, .imp, 2⟩, ⟨.lda, .imm, 2⟩, ⟨.tax, .imp, 2⟩, ⟨.nop, .imm, 2⟩,
  ⟨.ldy, .abs, 4⟩, ⟨.lda, .abs, 4⟩, ⟨.ldx, .abs, 4⟩, ⟨.nop, .abs, 4⟩]

/-- Row Bx of the grid of R61. -/
def catalogB : List Row := [
  ⟨.bcs, .rel, 2⟩, ⟨.lda, .indy, 5⟩, ⟨.nop, .imp, 2⟩, ⟨.nop, .indy, 5⟩,
  ⟨.ldy, .zpx, 4⟩, ⟨.lda, .zpx, 4⟩, ⟨.ldx, .zpy, 4⟩, ⟨.nop, .zpy, 4⟩,
  ⟨.clv, .imp, 2⟩, ⟨.lda, .absy, 4⟩, ⟨.tsx, .imp, 2⟩, ⟨.nop, .absy, 4⟩,
  ⟨.ldy, .absx, 4⟩, ⟨.lda, .absx, 4⟩, ⟨.ldx, .absy, 4⟩, ⟨.nop, .absy, 4⟩]

/-- Row Cx of the grid of R61. -/
def catalogC : List Row := [
  ⟨.cpy, .imm, 2⟩, ⟨.cmp, .indx, 6⟩, ⟨.nop, .imm, 2⟩, ⟨.nop, .indx, 8⟩,
  ⟨.cpy, .zp, 3⟩, ⟨.cmp, .zp, 3⟩, ⟨.dec, .zp, 5⟩, ⟨.nop, .zp, 5⟩,
  ⟨.iny, .imp, 2⟩, ⟨.cmp, .imm, 2⟩, ⟨.dex, .imp, 2⟩, ⟨.nop, .imm, 2⟩,
  ⟨.cpy, .abs, 4⟩, ⟨.cmp, .abs, 4⟩, ⟨.dec, .abs, 6⟩, ⟨.nop, .abs, 6⟩]

/-- Row Dx of the grid of R61. -/
def catalogD : List Row := [
  ⟨.bne, .rel, 2⟩, ⟨.cmp, .indy, 5⟩, ⟨.nop, .imp, 2⟩, ⟨.nop, .indy, 8⟩,
  ⟨.nop, .zpx, 4⟩, ⟨.cmp, .zpx, 4⟩, ⟨.dec, .zpx, 6⟩, ⟨.nop, .zpx, 6⟩,
  ⟨.cld, .imp, 2⟩, ⟨.cmp, .absy, 4⟩, ⟨.nop, .imp, 2⟩, ⟨.nop, .absy, 7⟩,
  ⟨.nop, .absx, 4⟩, ⟨.cmp, .absx, 4⟩, ⟨.dec, .absx, 7⟩, ⟨.nop, .absx, 7⟩]

/-- Row Ex of the grid of R61. -/
def catalogE : List Row := [
  ⟨.cpx, .imm, 2⟩, ⟨.sbc, .indx, 6⟩, ⟨.nop, .imm, 2⟩, ⟨.nop, .indx, 8⟩,
  ⟨.cpx, .zp, 3⟩, ⟨.sbc, .zp, 3⟩, ⟨.inc, .zp, 5⟩, ⟨.nop, .zp, 5⟩,
  ⟨.inx, .imp, 2⟩, ⟨.sbc, .imm, 2⟩, ⟨.nop, .imp, 2⟩, ⟨.nop, .imm, 2⟩,
  ⟨.cpx, .abs, 4⟩, ⟨.sbc, .abs, 4⟩, ⟨.inc, .abs, 6⟩, ⟨.nop, .abs, 6⟩]

/-- Row Fx of the grid of R61. -/
def catalogF : List Row := [
  ⟨.beq, .rel, 2⟩, ⟨.sbc, .indy, 5⟩, ⟨.nop, .imp, 2⟩, ⟨.nop, .indy, 8⟩,
  ⟨.nop, .zpx, 4⟩, ⟨.sbc, .zpx, 4⟩, ⟨.inc, .zpx, 6⟩, ⟨.nop, .zpx, 6⟩,
  ⟨.sed, .imp, 2⟩, ⟨.sbc, .absy, 4⟩, ⟨.nop, .imp, 2⟩, ⟨.nop, .absy, 7⟩,
  ⟨.nop, .absx, 4⟩, ⟨.sbc, .absx, 4⟩, ⟨.inc, .absx, 7⟩, ⟨.nop, .absx, 7⟩]

/-- The whole catalog, in the order of the opcode byte (R61). -/
def catalog : List Row :=
  catalog0 ++ catalog1 ++ catalog2 ++ catalog3 ++ catalog4 ++ catalog5 ++ catalog6 ++ catalog7 ++
  catalog8 ++ catalog9 ++ catalogA ++ catalogB ++ catalogC ++ catalogD ++ catalogE ++ catalogF

/-- `lookup(opcodeByte)` of R59: total, because the catalog has 256 rows (R62), so the default is never taken
(`test_catalog_has_256_rows`). -/
def catalogRow (op : Byte) : Row := catalog.getD op.toNat ⟨.nop, .imp, 2⟩

/-- The 105 bytes that encode no documented instruction, in the order of the table of R63. -/
def undocumentedBytes : List Byte := [
  0x02, 0x12, 0x22, 0x32, 0x42, 0x52, 0x62, 0x72, 0x92, 0xB2, 0xD2, 0xF2,  -- KIL (JAM)
  0x03, 0x07, 0x0F, 0x13, 0x17, 0x1B, 0x1F,  -- SLO
  0x23, 0x27, 0x2F, 0x33, 0x37, 0x3B, 0x3F,  -- RLA
  0x43, 0x47, 0x4F, 0x53, 0x57, 0x5B, 0x5F,  -- SRE
  0x63, 0x67, 0x6F, 0x73, 0x77, 0x7B, 0x7F,  -- RRA
  0x83, 0x87, 0x8F, 0x97,  -- SAX
  0xA3, 0xA7, 0xAB, 0xAF, 0xB3, 0xB7, 0xBF,  -- LAX
  0xC3, 0xC7, 0xCF, 0xD3, 0xD7, 0xDB, 0xDF,  -- DCP
  0xE3, 0xE7, 0xEF, 0xF3, 0xF7, 0xFB, 0xFF,  -- ISC
  0x0B, 0x2B,  -- ANC
  0x4B,  -- ALR
  0x6B,  -- ARR
  0x8B,  -- XAA
  0xCB,  -- AXS
  0xEB,  -- SBC (undocumented copy)
  0x93, 0x9F,  -- AHX
  0x9B,  -- TAS
  0x9C,  -- SHY
  0x9E,  -- SHX
  0xBB,  -- LAS
  0x04, 0x0C, 0x14, 0x1A, 0x1C, 0x34, 0x3A, 0x3C, 0x44, 0x54, 0x5A, 0x5C,  -- NOP variants
  0x64, 0x74, 0x7A, 0x7C, 0x80, 0x82, 0x89, 0xC2, 0xD4, 0xDA, 0xDC, 0xE2,
  0xF4, 0xFA, 0xFC]

/-- Is the byte one of the 105 (R63)? -/
def isUndocumented (op : Byte) : Bool := undocumentedBytes.contains op

/-- The no-op bytes whose handler sets `pen_op`: the six undocumented absolute,X ones (R66, R123). -/
def nopPenaltyBytes : List Byte := [0x1C, 0x3C, 0x5C, 0x7C, 0xDC, 0xFC]

end Sys2Proof
end

