-- ==== Sys2Proof/Syntax.lean ====
section
/-! DEFINITION. The instructions: one constructor per documented mnemonic of spec/opcode_table.json (spec/00_scope.md R1), and one
for the 105 undocumented bytes that the NOP handler runs (spec/30_encoding.md R63). The rows of the table that share a mnemonic
are the forms of one constructor: its operand carries the addressing mode and the operand bytes (log entry 5). -/

namespace Sys2Proof

inductive Instr
  -- spec/41_arithmetic.md
  | adc (o : Operand)
  | sbc (o : Operand)
  -- spec/42_logical.md
  | and (o : Operand)
  | ora (o : Operand)
  | eor (o : Operand)
  -- spec/43_shift_rotate.md
  | asl (o : Operand)
  | lsr (o : Operand)
  | rol (o : Operand)
  | ror (o : Operand)
  -- spec/44_incdec.md
  | inc (o : Operand)
  | dec (o : Operand)
  | inx
  | iny
  | dex
  | dey
  -- spec/45_compare_bit.md
  | cmp (o : Operand)
  | cpx (o : Operand)
  | cpy (o : Operand)
  | bit (o : Operand)
  -- spec/46_branch.md: the displacement byte
  | bcc (d : Byte)
  | bcs (d : Byte)
  | beq (d : Byte)
  | bne (d : Byte)
  | bmi (d : Byte)
  | bpl (d : Byte)
  | bvc (d : Byte)
  | bvs (d : Byte)
  -- spec/47_stack.md
  | pha
  | php
  | pla
  | plp
  | jsr (target : Addr)
  | rts
  | rti
  | brk
  -- spec/48_transfer_flag_nop.md
  | tax
  | tay
  | txa
  | tya
  | tsx
  | txs
  | sec
  | clc
  | sei
  | cli
  | sed
  | cld
  | clv
  | nop
  /-- The NOP handler on the undocumented byte `op` (R123). -/
  | nopUndoc (op : Byte) (o : Operand)
  -- spec/49_load_store_jump.md
  | lda (o : Operand)
  | ldx (o : Operand)
  | ldy (o : Operand)
  | sta (o : Operand)
  | stx (o : Operand)
  | sty (o : Operand)
  | jmp (o : Operand)
  deriving DecidableEq, Repr

end Sys2Proof
end

