-- ==== Sys2Proof/WellFormed.lean ====
section
/-! DEFINITION. Which instruction terms some opcode byte encodes: the mode of the operand is one of those the instruction's own
rule lists under "Encoding" (spec/41_arithmetic.md to spec/49_load_store_jump.md). Operand bytes are not constrained
(spec/30_encoding.md R64). -/

namespace Sys2Proof

/-- The modes of ADC, SBC, AND, ORA, EOR, CMP and LDA (R71, R72, R74, R75, R76, R88, R124). -/
def aluModes : List Mode := [.imm, .zp, .zpx, .abs, .absx, .absy, .indx, .indy]

/-- The modes of ASL, LSR, ROL and ROR (R77 to R80). -/
def shiftModes : List Mode := [.acc, .zp, .zpx, .abs, .absx]

/-- The modes of INC and DEC (R81, R82). -/
def incModes : List Mode := [.zp, .zpx, .abs, .absx]

/-- The modes of CPX and CPY (R89, R90). -/
def compareIndexModes : List Mode := [.imm, .zp, .abs]

/-- Some opcode byte encodes the instruction. -/
def Instr.wf : Instr → Bool
  | .adc o | .sbc o | .and o | .ora o | .eor o | .cmp o | .lda o => aluModes.contains o.mode
  | .asl o | .lsr o | .rol o | .ror o => shiftModes.contains o.mode
  | .inc o | .dec o => incModes.contains o.mode
  | .cpx o | .cpy o => compareIndexModes.contains o.mode
  | .bit o => [Mode.zp, .abs].contains o.mode
  | .ldx o => [Mode.imm, .zp, .zpy, .abs, .absy].contains o.mode
  | .ldy o => [Mode.imm, .zp, .zpx, .abs, .absx].contains o.mode
  | .sta o => [Mode.zp, .zpx, .abs, .absx, .absy, .indx, .indy].contains o.mode
  | .stx o => [Mode.zp, .zpy, .abs].contains o.mode
  | .sty o => [Mode.zp, .zpx, .abs].contains o.mode
  | .jmp o => [Mode.abs, .ind].contains o.mode
  | .nopUndoc op o => isUndocumented op && (catalogRow op).mode == o.mode
  | .bcc _ | .bcs _ | .beq _ | .bne _ | .bmi _ | .bpl _ | .bvc _ | .bvs _ => true
  | .inx | .iny | .dex | .dey => true
  | .pha | .php | .pla | .plp | .jsr _ | .rts | .rti | .brk => true
  | .tax | .tay | .txa | .tya | .tsx | .txs => true
  | .sec | .clc | .sei | .cli | .sed | .cld | .clv | .nop => true

end Sys2Proof
end

