-- ==== Sys2Proof/Decode.lean ====
section
/-! DEFINITION. The decoder and, after it, the encoder. The decoder looks the whole opcode byte up in the catalog and takes the
operand bytes its mode consumes (spec/30_encoding.md R55 to R58); it never refuses a byte (R62), only a list of bytes that ends
too early. The encoder's opcode bytes are transcribed from the "Encoding" line of each instruction's own rule, not from the
catalog, so that the two readings of the spec check each other. -/

namespace Sys2Proof

/-- Why a list of bytes does not decode: it ends before the opcode or before the operand bytes. No step raises it. -/
inductive DecodeError
  | noOpcode
  | missingOperand (op : Byte)
  deriving DecidableEq, Repr

/-- The operand of mode `m` whose bytes are `b1` and `b2`, a word low byte first (R55, R56). -/
def operandOf (m : Mode) (b1 b2 : Byte) : Operand :=
  match m with
  | .imp => .imp
  | .acc => .acc
  | .imm => .imm b1
  | .zp => .zp b1
  | .zpx => .zpx b1
  | .zpy => .zpy b1
  | .rel => .rel b1
  | .abs => .abs (word b2 b1)
  | .absx => .absx (word b2 b1)
  | .absy => .absy (word b2 b1)
  | .ind => .ind (word b2 b1)
  | .indx => .indx b1
  | .indy => .indy b1

/-- The instruction of a catalog row: its handler with the operand of its mode. The NOP handler is the documented instruction on
0xEA and the undocumented one on every other byte (R63, R122, R123). -/
def instrOf (op : Byte) (r : Row) (b1 b2 : Byte) : Instr :=
  let o := operandOf r.mode b1 b2
  match r.handler with
  | .adc => .adc o
  | .sbc => .sbc o
  | .and => .and o
  | .ora => .ora o
  | .eor => .eor o
  | .asl => .asl o
  | .lsr => .lsr o
  | .rol => .rol o
  | .ror => .ror o
  | .inc => .inc o
  | .dec => .dec o
  | .inx => .inx
  | .iny => .iny
  | .dex => .dex
  | .dey => .dey
  | .cmp => .cmp o
  | .cpx => .cpx o
  | .cpy => .cpy o
  | .bit => .bit o
  | .bcc => .bcc b1
  | .bcs => .bcs b1
  | .beq => .beq b1
  | .bne => .bne b1
  | .bmi => .bmi b1
  | .bpl => .bpl b1
  | .bvc => .bvc b1
  | .bvs => .bvs b1
  | .pha => .pha
  | .php => .php
  | .pla => .pla
  | .plp => .plp
  | .jsr => .jsr (word b2 b1)
  | .rts => .rts
  | .rti => .rti
  | .brk => .brk
  | .tax => .tax
  | .tay => .tay
  | .txa => .txa
  | .tya => .tya
  | .tsx => .tsx
  | .txs => .txs
  | .sec => .sec
  | .clc => .clc
  | .sei => .sei
  | .cli => .cli
  | .sed => .sed
  | .cld => .cld
  | .clv => .clv
  | .nop => if op = 0xEA then .nop else .nopUndoc op o
  | .lda => .lda o
  | .ldx => .ldx o
  | .ldy => .ldy o
  | .sta => .sta o
  | .stx => .stx o
  | .sty => .sty o
  | .jmp => .jmp o

/-- The instruction at three consecutive bytes; the bytes past its length are not looked at (R58). -/
def decodeFields (op b1 b2 : Byte) : Instr := instrOf op (catalogRow op) b1 b2

/-- Decodes the instruction at the head of a list of bytes and returns the bytes after it. -/
def decode : List Byte → Except DecodeError (Instr × List Byte)
  | [] => .error .noOpcode
  | op :: rest =>
    match (catalogRow op).mode.width, rest with
    | 0, rest => .ok (decodeFields op 0 0, rest)
    | 1, b1 :: rest => .ok (decodeFields op b1 0, rest)
    | 2, b1 :: b2 :: rest => .ok (decodeFields op b1 b2, rest)
    | _, _ => .error (.missingOperand op)

/-- Byte `k` of a word numbered as spec/opcode_table.json numbers it, after the bits from `nbits` up are dropped. -/
def tableByte (nbits w k : Nat) : Byte := BitVec.ofNat 8 ((w % 2 ^ nbits) >>> (8 * k))

/-- The instruction read from an instruction whose low `nbits` bits are those of `w` and whose other bits are 0. -/
def decodeTableWord (nbits w : Nat) : Option Instr :=
  match decode [tableByte nbits w 0, tableByte nbits w 1, tableByte nbits w 2] with
  | .ok (i, _) => some i
  | .error _ => none

/-- The operand bytes in memory order, a word low byte first (R30, R55). -/
def Operand.bytes : Operand → List Byte
  | .imp | .acc => []
  | .imm b | .zp b | .zpx b | .zpy b | .rel b | .indx b | .indy b => [b]
  | .abs w | .absx w | .absy w | .ind w => [lo w, hi w]

/-- The operand of an instruction, with its mode. -/
def Instr.operand : Instr → Operand
  | .adc o | .sbc o | .and o | .ora o | .eor o | .asl o | .lsr o | .rol o | .ror o | .inc o | .dec o | .cmp o | .cpx o | .cpy o | .bit o
  | .lda o | .ldx o | .ldy o | .sta o | .stx o | .sty o | .jmp o | .nopUndoc _ o => o
  | .bcc d | .bcs d | .beq d | .bne d | .bmi d | .bpl d | .bvc d | .bvs d => .rel d
  | .jsr w => .abs w
  | .inx | .iny | .dex | .dey | .pha | .php | .pla | .plp | .rts | .rti
  | .brk | .tax | .tay | .txa | .tya | .tsx | .txs | .sec | .clc | .sei
  | .cli | .sed | .cld | .clv | .nop => .imp

/-- The handler the instruction runs (R59). -/
def Instr.handler : Instr → Handler
  | .adc _ => .adc
  | .sbc _ => .sbc
  | .and _ => .and
  | .ora _ => .ora
  | .eor _ => .eor
  | .asl _ => .asl
  | .lsr _ => .lsr
  | .rol _ => .rol
  | .ror _ => .ror
  | .inc _ => .inc
  | .dec _ => .dec
  | .inx => .inx
  | .iny => .iny
  | .dex => .dex
  | .dey => .dey
  | .cmp _ => .cmp
  | .cpx _ => .cpx
  | .cpy _ => .cpy
  | .bit _ => .bit
  | .bcc _ => .bcc
  | .bcs _ => .bcs
  | .beq _ => .beq
  | .bne _ => .bne
  | .bmi _ => .bmi
  | .bpl _ => .bpl
  | .bvc _ => .bvc
  | .bvs _ => .bvs
  | .pha => .pha
  | .php => .php
  | .pla => .pla
  | .plp => .plp
  | .jsr _ => .jsr
  | .rts => .rts
  | .rti => .rti
  | .brk => .brk
  | .tax => .tax
  | .tay => .tay
  | .txa => .txa
  | .tya => .tya
  | .tsx => .tsx
  | .txs => .txs
  | .sec => .sec
  | .clc => .clc
  | .sei => .sei
  | .cli => .cli
  | .sed => .sed
  | .cld => .cld
  | .clv => .clv
  | .nop | .nopUndoc _ _ => .nop
  | .lda _ => .lda
  | .ldx _ => .ldx
  | .ldy _ => .ldy
  | .sta _ => .sta
  | .stx _ => .stx
  | .sty _ => .sty
  | .jmp _ => .jmp

/-- The opcode byte of the form with mode `m` in an "Encoding" line. -/
def opcodeIn (m : Mode) (forms : List (Mode × Byte)) : Option Byte := forms.lookup m

/-- The opcode byte of a well-formed instruction, and `none` where no byte encodes the term. -/
def Instr.opcode : Instr → Option Byte
  | .adc o => opcodeIn o.mode [(.imm, 0x69), (.zp, 0x65), (.zpx, 0x75), (.abs, 0x6D),  -- R71
      (.absx, 0x7D), (.absy, 0x79), (.indx, 0x61), (.indy, 0x71)]
  | .sbc o => opcodeIn o.mode [(.imm, 0xE9), (.zp, 0xE5), (.zpx, 0xF5), (.abs, 0xED),  -- R72
      (.absx, 0xFD), (.absy, 0xF9), (.indx, 0xE1), (.indy, 0xF1)]
  | .and o => opcodeIn o.mode [(.imm, 0x29), (.zp, 0x25), (.zpx, 0x35), (.abs, 0x2D),  -- R74
      (.absx, 0x3D), (.absy, 0x39), (.indx, 0x21), (.indy, 0x31)]
  | .ora o => opcodeIn o.mode [(.imm, 0x09), (.zp, 0x05), (.zpx, 0x15), (.abs, 0x0D),  -- R75
      (.absx, 0x1D), (.absy, 0x19), (.indx, 0x01), (.indy, 0x11)]
  | .eor o => opcodeIn o.mode [(.imm, 0x49), (.zp, 0x45), (.zpx, 0x55), (.abs, 0x4D),  -- R76
      (.absx, 0x5D), (.absy, 0x59), (.indx, 0x41), (.indy, 0x51)]
  | .asl o => opcodeIn o.mode [(.acc, 0x0A), (.zp, 0x06), (.zpx, 0x16), (.abs, 0x0E), (.absx, 0x1E)]  -- R77
  | .lsr o => opcodeIn o.mode [(.acc, 0x4A), (.zp, 0x46), (.zpx, 0x56), (.abs, 0x4E), (.absx, 0x5E)]  -- R78
  | .rol o => opcodeIn o.mode [(.acc, 0x2A), (.zp, 0x26), (.zpx, 0x36), (.abs, 0x2E), (.absx, 0x3E)]  -- R79
  | .ror o => opcodeIn o.mode [(.acc, 0x6A), (.zp, 0x66), (.zpx, 0x76), (.abs, 0x6E), (.absx, 0x7E)]  -- R80
  | .inc o => opcodeIn o.mode [(.zp, 0xE6), (.zpx, 0xF6), (.abs, 0xEE), (.absx, 0xFE)]  -- R81
  | .dec o => opcodeIn o.mode [(.zp, 0xC6), (.zpx, 0xD6), (.abs, 0xCE), (.absx, 0xDE)]  -- R82
  | .inx => some 0xE8
  | .iny => some 0xC8
  | .dex => some 0xCA
  | .dey => some 0x88
  | .cmp o => opcodeIn o.mode [(.imm, 0xC9), (.zp, 0xC5), (.zpx, 0xD5), (.abs, 0xCD),  -- R88
      (.absx, 0xDD), (.absy, 0xD9), (.indx, 0xC1), (.indy, 0xD1)]
  | .cpx o => opcodeIn o.mode [(.imm, 0xE0), (.zp, 0xE4), (.abs, 0xEC)]  -- R89
  | .cpy o => opcodeIn o.mode [(.imm, 0xC0), (.zp, 0xC4), (.abs, 0xCC)]  -- R90
  | .bit o => opcodeIn o.mode [(.zp, 0x24), (.abs, 0x2C)]  -- R91
  | .bcc _ => some 0x90
  | .bcs _ => some 0xB0
  | .beq _ => some 0xF0
  | .bne _ => some 0xD0
  | .bmi _ => some 0x30
  | .bpl _ => some 0x10
  | .bvc _ => some 0x50
  | .bvs _ => some 0x70
  | .pha => some 0x48
  | .php => some 0x08
  | .pla => some 0x68
  | .plp => some 0x28
  | .jsr _ => some 0x20
  | .rts => some 0x60
  | .rti => some 0x40
  | .brk => some 0x00
  | .tax => some 0xAA
  | .tay => some 0xA8
  | .txa => some 0x8A
  | .tya => some 0x98
  | .tsx => some 0xBA
  | .txs => some 0x9A
  | .sec => some 0x38
  | .clc => some 0x18
  | .sei => some 0x78
  | .cli => some 0x58
  | .sed => some 0xF8
  | .cld => some 0xD8
  | .clv => some 0xB8
  | .nop => some 0xEA
  | .nopUndoc op o => if isUndocumented op && (catalogRow op).mode == o.mode then some op else none
  | .lda o => opcodeIn o.mode [(.imm, 0xA9), (.zp, 0xA5), (.zpx, 0xB5), (.abs, 0xAD),  -- R124
      (.absx, 0xBD), (.absy, 0xB9), (.indx, 0xA1), (.indy, 0xB1)]
  | .ldx o => opcodeIn o.mode [(.imm, 0xA2), (.zp, 0xA6), (.zpy, 0xB6), (.abs, 0xAE), (.absy, 0xBE)]  -- R125
  | .ldy o => opcodeIn o.mode [(.imm, 0xA0), (.zp, 0xA4), (.zpx, 0xB4), (.abs, 0xAC), (.absx, 0xBC)]  -- R126
  | .sta o => opcodeIn o.mode [(.zp, 0x85), (.zpx, 0x95), (.abs, 0x8D), (.absx, 0x9D),  -- R127
      (.absy, 0x99), (.indx, 0x81), (.indy, 0x91)]
  | .stx o => opcodeIn o.mode [(.zp, 0x86), (.zpy, 0x96), (.abs, 0x8E)]  -- R128
  | .sty o => opcodeIn o.mode [(.zp, 0x84), (.zpx, 0x94), (.abs, 0x8C)]  -- R129
  | .jmp o => opcodeIn o.mode [(.abs, 0x4C), (.ind, 0x6C)]  -- R130

/-- The bytes of a well-formed instruction, in increasing addresses (R55); nothing for a term no byte encodes. -/
def encode (i : Instr) : List Byte :=
  match i.opcode with
  | some op => op :: i.operand.bytes
  | none => []

end Sys2Proof
end

