-- ==== Sys2Proof/Config.lean ====
section
/-! DEFINITION. The parameters of the core at the values this hardware takes (spec/00_scope.md R6). The spec leaves no value free
(spec/60_exceptions.md R132), so there is no opaque constant here. `PC_MASKED` is true (every `PC` and effective address is an
`Addr`) and `COUNTER_WIDTH` is unbounded (both counters are `Nat`); `UNDOC_TABLE` is in Machine/Catalog.lean; `mem0` and `stop` are
fields of `Launch` in Machine/HostInterface.lean. -/

namespace Sys2Proof.Config

/-- `MEM_SIZE`: the store has exactly one byte per 16-bit address (R6, R28; the spec's decision D3). -/
def memSize : Nat := 65536

/-- The stack page base (R6, R11). -/
def stackBase : Addr := 0x0100#16

/-- The reset vector, low byte first (R6, R33). -/
def resetVector : Addr := 0xFFFC#16

/-- The BRK vector, low byte first (R6, R33). -/
def brkVector : Addr := 0xFFFE#16

/-- `SP` after reset (R6, R26). -/
def spReset : Byte := 0xFD#8

/-- `RESET_P`: the status byte after reset, only the constant bit set (R6, R26; the spec's decision D5, log entry 8). -/
def resetP : Byte := 0x20#8

end Sys2Proof.Config
end

