-- ==== Sys2Proof/Machine/Memory.lean ====
section
/-! DEFINITION. The flat byte store of spec/20_memory.md R27 to R33 as plain data: the listed bytes, in rising addresses, with no
entry equal to what an unlisted address reads as, so that equal memories are equal lists. -/

namespace Sys2Proof.Machine

/-- The listed bytes of the store. -/
abbrev Memory := List Host.Cell

/-- What an address with no entry reads as. DESIGN CHOICE (log entry 2): the spec fixes no contents (R145, D29); every
65536-byte memory has exactly one canonical list, so no contents are lost. -/
def Memory.unlisted : Byte := 0

/-- The byte at an address (R32). -/
def Memory.read : Memory → Nat → Byte
  | [], _ => Memory.unlisted
  | (k, v) :: m, a => if k = a then v else Memory.read m a

/-- Puts a byte that differs from `unlisted` at its place in the rising order. -/
def Memory.insert : Memory → Nat → Byte → Memory
  | [], a, v => [(a, v)]
  | (k, w) :: m, a, v =>
    if a < k then (a, v) :: (k, w) :: m
    else if a = k then (k, v) :: m
    else (k, w) :: Memory.insert m a v

/-- Stores a byte (R32); storing the unlisted value takes the entry out. -/
def Memory.write (m : Memory) (a : Nat) (v : Byte) : Memory :=
  if v = Memory.unlisted then m.filter (fun c => c.1 != a) else m.insert a v

/-- The list is canonical from the address `lower` up: rising addresses below `MEM_SIZE`, no entry that equals `unlisted`. -/
def Memory.wfFrom : Nat → Memory → Bool
  | _, [] => true
  | lower, (k, v) :: m =>
    decide (lower ≤ k) && decide (k < Config.memSize) && decide (v ≠ Memory.unlisted) && Memory.wfFrom (k + 1) m

/-- The canonical form. -/
def Memory.wf (m : Memory) : Bool := Memory.wfFrom 0 m

/-- The little-endian word whose bytes are at `a` and `a + 1` modulo 2^16 (R30): both vectors are read so. -/
def Memory.readVector (m : Memory) (a : Addr) : Addr :=
  word (m.read (a + 1).toNat) (m.read a.toNat)

end Sys2Proof.Machine
end

