-- ==== Sys2Proof/Machine/State.lean ====
section
/-! DEFINITION. The state of the core and the memory it borrows, the reasons a step or a host operation can stop, and the reset
sequence (spec/10_state.md, spec/70_reset_and_hazards.md R144). -/

namespace Sys2Proof.Machine

/-- Everything the spec gives the machine; INVENTORY.md lists the rule behind each field. -/
structure State where
  /-- The accumulator (R7). -/
  a : Byte
  /-- The X index register (R7). -/
  x : Byte
  /-- The Y index register (R7). -/
  y : Byte
  /-- The stack pointer (R11). -/
  sp : Byte
  /-- The status byte (R12). -/
  p : Byte
  /-- The program counter (R9). -/
  pc : Addr
  /-- The effective-address register (R19). -/
  ea : Addr
  /-- The sentinel `ea_acc`: the operand is the accumulator (R19). -/
  eaAcc : Bool
  /-- The relative displacement (R20). -/
  rel : Addr
  /-- The penalty indicator of the resolver (R21). -/
  penAddr : Bool
  /-- The penalty indicator of the handler (R21). -/
  penOp : Bool
  /-- The cumulative cycle counter (R22). -/
  cycles : Nat
  /-- The executed-instruction counter (R23). -/
  instret : Nat
  /-- The memory the core borrows from the host (R27). -/
  mem : Memory
  deriving DecidableEq, Repr

/-- The one failure the spec names (R131). -/
inductive Fault
  /-- Raised by the host's memory operations of Machine/HostInterface.lean for an address outside `0..MEM_SIZE-1` (R146, U6), never
  by a step. Safe: the hardware's interface fails there too, and nothing changes in the core. -/
  | boundsViolation (address : Nat)
  deriving DecidableEq, Repr

/-- Why no meaning is given. -/
inductive Refusal
  /-- Raised by an arm of `exec` for an instruction without a meaning; no arm does. Safe. -/
  | notModelled (mnemonic : String)
  /-- Raised by `runInstr` for a term that no opcode byte encodes, such as a store to an immediate; the decoder makes no such
  term, so no step raises it. Safe. -/
  | notInCatalog
  /-- Raised by the host's `bulkLoad` of Machine/HostInterface.lean when the source is shorter than the length asked for, which the
  spec does not describe, whether or not the range leaves the store (DESIGN CHOICE, log entry 20); no step raises it. Safe. -/
  | bulkLoadShortSource
  deriving DecidableEq, Repr

/-- The reset sequence, run once when the host constructs the core over its memory (R144, R26). -/
def State.construct (mem0 : Memory) : State where
  a := 0
  x := 0
  y := 0
  sp := Config.spReset
  p := Config.resetP
  pc := mem0.readVector Config.resetVector
  ea := 0
  eaAcc := false
  rel := 0
  penAddr := false
  penOp := false
  cycles := 0
  instret := 0
  mem := mem0

/-- The machine right after reset, over a memory that lists nothing (log entries 2 and 3). -/
def State.reset : State := State.construct []

end Sys2Proof.Machine
end

