-- ==== Sys2Proof/Machine/Flags.lean ====
section
/-! DEFINITION. The status byte and every flag computation of the spec: the bits of `P` (spec/10_state.md R12, R13), `SetZN` (R18),
the adder (spec/41_arithmetic.md R70), the compare (spec/45_compare_bit.md R87), the bit test (R91) and the carry of shifts and
rotates (spec/43_shift_rotate.md). -/

namespace Sys2Proof.Machine

/-- The flags of `P`, in the order of R12. -/
inductive Flag
  | c | z | i | d | b | u | v | n
  deriving DecidableEq, Repr

/-- The bit of `P` that holds the flag (R12; the positions are the spec's own choice, log entry 12). -/
def Flag.index : Flag → Nat
  | .c => 0
  | .z => 1
  | .i => 2
  | .d => 3
  | .b => 4
  | .u => 5
  | .v => 6
  | .n => 7

/-- The mask of the flag (R12). -/
def Flag.mask (f : Flag) : Byte := 1#8 <<< f.index

/-- A flag of a status byte. -/
def flagOf (p : Byte) (f : Flag) : Bool := p.getLsbD f.index

/-- A flag of the status register: `P.F` of the pseudocode. -/
def State.flag (s : State) (f : Flag) : Bool := flagOf s.p f

/-- A write of `P`: bit 5 is forced to 1 (R13). -/
def State.setP (s : State) (v : Byte) : State := { s with p := v ||| Flag.u.mask }

/-- `P.F <- cond`: a write of `P` in which the other flags keep their value (R13). -/
def State.setFlag (s : State) (f : Flag) (cond : Bool) : State :=
  s.setP (if cond then s.p ||| f.mask else s.p &&& ~~~f.mask)

/-- `SetZN(v)` on the low byte of the result (R18). -/
def State.setZN (s : State) (v : Byte) : State :=
  (s.setFlag .z (v == 0)).setFlag .n v.msb

/-- `bool(P.C)`. -/
def State.carry (s : State) : Nat := (s.flag .c).toNat

/-- The wide sum of the adder, an integer in 0..511 (R70). -/
def State.wideSum (s : State) (m : Byte) : Nat := s.a.toNat + m.toNat + s.carry

/-- The overflow of the adder: the accumulator and the addend have one sign and the result the other (R70). -/
def overflow (a m result : Byte) : Bool := (result ^^^ a) &&& (result ^^^ m) &&& 0x80#8 != 0

/-- `AddWithCarry(m)`: binary whatever `P.D` holds (R70). -/
def State.addWithCarry (s : State) (m : Byte) : State :=
  let sum := s.wideSum m
  let result := BitVec.ofNat 8 sum
  { ((s.setFlag .c (sum.testBit 8)).setZN result).setFlag .v (overflow s.a m result) with a := result }

/-- `Compare(R, M)` (R87). -/
def State.compare (s : State) (r m : Byte) : State :=
  ((s.setFlag .c (m.ule r)).setFlag .z (r == m)).setFlag .n (r - m).msb

/-- The bit test of R91: `Z` from `A & M`, `N` and `V` from the top bits of `M`. -/
def State.bitTest (s : State) (m : Byte) : State :=
  ((s.setFlag .z (s.a &&& m == 0)).setFlag .n (m.getLsbD 7)).setFlag .v (m.getLsbD 6)

/-- The flags of a shift or rotate: the carry is the bit shifted out, `Z` and `N` are those of the result (R77 to R80). -/
def State.setShiftFlags (s : State) (out : Bool) (result : Byte) : State :=
  (s.setFlag .c out).setZN result

/-- The result of ASL (R77). -/
def aslResult (m : Byte) : Byte := m <<< 1

/-- The result of LSR (R78). -/
def lsrResult (m : Byte) : Byte := m >>> 1

/-- The result of ROL: the old carry goes into bit 0 (R79). -/
def rolResult (m : Byte) (carry : Bool) : Byte := m <<< 1 ||| (if carry then 0x01#8 else 0)

/-- The result of ROR: the old carry goes into bit 7 (R80). -/
def rorResult (m : Byte) (carry : Bool) : Byte := m >>> 1 ||| (if carry then 0x80#8 else 0)

end Sys2Proof.Machine
end

