-- ==== Sys2Proof/Machine/Ops.lean ====
section
/-! DEFINITION. The named operations over memory and registers: the memory port (spec/20_memory.md R27 to R32), the stack
(R37), the phases of a step around the handler (spec/30_encoding.md R65), the branch helper (spec/46_branch.md R92), taking the
BRK software interrupt and returning from it (spec/47_stack.md R107, R108, spec/60_exceptions.md R135, R136). -/

namespace Sys2Proof.Machine

/-- `MemRead(addr, 1)`. -/
def State.readByte (s : State) (addr : Addr) : Byte := s.mem.read addr.toNat

/-- `MemWrite(addr, 1, v)`. -/
def State.writeByte (s : State) (addr : Addr) (v : Byte) : State :=
  { s with mem := s.mem.write addr.toNat v }

/-- `A <- v`. -/
def State.setA (s : State) (v : Byte) : State := { s with a := v }

/-- `X <- v`. -/
def State.setX (s : State) (v : Byte) : State := { s with x := v }

/-- `Y <- v`. -/
def State.setY (s : State) (v : Byte) : State := { s with y := v }

/-- `SP <- v`. -/
def State.setSP (s : State) (v : Byte) : State := { s with sp := v }

/-- `PC <- target`; an address is already reduced modulo 2^16 (R9). -/
def State.setPC (s : State) (target : Addr) : State := { s with pc := target }

/-- `PC <- PC + n` (R9). -/
def State.advancePC (s : State) (n : Nat) : State := { s with pc := s.pc + BitVec.ofNat 16 n }

/-- `ea <- addr; ea_acc <- 0` (R19). -/
def State.setEA (s : State) (addr : Addr) : State := { s with ea := addr, eaAcc := false }

/-- `if crossed then pen_addr <- 1` (R53). -/
def State.markCrossing (s : State) (crossed : Bool) : State := { s with penAddr := s.penAddr || crossed }

/-- `pen_op <- 1`: the handler is timing-sensitive to a page crossing (R66). -/
def State.setPenOp (s : State) : State := { s with penOp := true }

/-- `cycles <- cycles + n` (R22). -/
def State.addCycles (s : State) (n : Nat) : State := { s with cycles := s.cycles + n }

/-- The fetch phase: `PC` moves past the opcode byte and both penalty indicators are cleared (R65). -/
def State.beginStep (s : State) : State :=
  { s with pc := s.pc + 1, penAddr := false, penOp := false }

/-- The accounting phase: the base cycles, one more where both indicators are set, and one instruction (R65, R67). -/
def State.account (s : State) (baseCycles : Nat) : State :=
  { s with cycles := s.cycles + baseCycles + (s.penAddr && s.penOp).toNat, instret := s.instret + 1 }

/-- The address in the stack page of stack-pointer value `sp` (R11). -/
def stackAddr (sp : Byte) : Addr := Config.stackBase + zext16 sp

/-- `Push8(v)` (R37). -/
def State.push8 (s : State) (v : Byte) : State :=
  (s.writeByte (stackAddr s.sp) v).setSP (s.sp - 1)

/-- The byte `Pull8()` returns (R37). -/
def State.pulled8 (s : State) : Byte := s.readByte (stackAddr (s.sp + 1))

/-- The state `Pull8()` leaves (R37). -/
def State.pull8 (s : State) : State := s.setSP (s.sp + 1)

/-- `Push16(v)`: the high byte first, at the higher address (R37). -/
def State.push16 (s : State) (v : Addr) : State :=
  ((s.writeByte (stackAddr s.sp) (hi v)).writeByte (stackAddr (s.sp - 1)) (lo v)).setSP (s.sp - 2)

/-- The word `Pull16()` returns (R37). -/
def State.pulled16 (s : State) : Addr :=
  word (s.readByte (stackAddr (s.sp + 2))) (s.readByte (stackAddr (s.sp + 1)))

/-- The state `Pull16()` leaves (R37). -/
def State.pull16 (s : State) : State := s.setSP (s.sp + 2)

/-- `Branch(cond)`: the cycles of a taken branch are added here; the page compared with is that of the next instruction (R92). -/
def State.branch (s : State) (cond : Bool) : State :=
  if cond then
    let target := s.pc + s.rel
    (s.setPC target).addCycles (if page target ≠ page s.pc then 2 else 1)
  else s

/-- The status byte as PHP and BRK push it: a copy with the break flag set (R102, R108). -/
def State.pushedP (s : State) : Byte := s.p ||| Flag.b.mask

/-- Taking the BRK software interrupt, with `PC` at the byte BRK skips: the return address and the status are saved on the stack,
`I` is set, and `PC` is loaded from the BRK vector after the pushes (R108, R135). -/
def State.takeInterrupt (s : State) : State :=
  let saved := ((s.advancePC 1).push16 (s.pc + 1)).push8 s.pushedP
  (saved.setFlag .i true).setPC (saved.mem.readVector Config.brkVector)

/-- Returning from an interrupt: the status is pulled first, then the address, with no adjustment (R107, R136). -/
def State.returnFromInterrupt (s : State) : State :=
  let restored := s.pull8.setP s.pulled8
  restored.pull16.setPC restored.pulled16

end Sys2Proof.Machine
end

