-- ==== Sys2Proof/Machine/Operands.lean ====
section
/-! DEFINITION. The 13 addressing-mode resolvers and the two operand accesses of the handlers (spec/20_memory.md R38 to R54). A
resolver runs with `PC` at the byte after the opcode. The operand bytes it would read there are those the decoder read at the
same moment of the step and put into the operand (log entry 1). -/

namespace Sys2Proof.Machine

/-- The page-zero pointer word at `z`, its high byte from `(z + 1) mod 256` (R51, R52). -/
def State.zeroPagePointer (s : State) (z : Byte) : Addr :=
  word (s.readByte (zext16 (z + 1))) (s.readByte (zext16 z))

/-- The address of the second pointer byte of the indirect mode: the next byte of the same page (R50). -/
def samePageNext (ptr : Addr) : Addr := word (hi ptr) (lo ptr + 1)

/-- The address an indexed mode adds the index to (R48, R49, R52), and 0 where there is none. -/
def State.baseAddr (s : State) : Operand → Addr
  | .absx w | .absy w => w
  | .indy b => s.zeroPagePointer b
  | _ => 0

/-- The effective address of an operand with `PC` after the opcode (R42 to R52). The modes without one (imp, acc, rel) are
given 0, which no resolver stores. -/
def State.effAddr (s : State) (o : Operand) : Addr :=
  match o with
  | .imp | .acc | .rel _ => 0
  | .imm _ => s.pc
  | .zp b => zext16 b
  | .zpx b => zext16 (b + s.x)
  | .zpy b => zext16 (b + s.y)
  | .abs w => w
  | .absx _ => s.baseAddr o + zext16 s.x
  | .absy _ => s.baseAddr o + zext16 s.y
  | .ind ptr => word (s.readByte (samePageNext ptr)) (s.readByte ptr)
  | .indx b => s.zeroPagePointer (b + s.x)
  | .indy _ => s.baseAddr o + zext16 s.y

/-- Indexing left the page of the base address: the condition of R53, for the three modes that have it. -/
def State.crossesPage (s : State) (o : Operand) : Bool :=
  match o with
  | .absx _ | .absy _ | .indy _ => page (s.effAddr o) != page (s.baseAddr o)
  | _ => false

/-- The resolver of the operand's mode: `Resolve(e.mode)` (R40 to R53). -/
def State.resolve (s : State) (o : Operand) : State :=
  match o with
  | .imp => s
  | .acc => { s with eaAcc := true }
  | .rel d => { s with rel := sext16 d, pc := s.pc + 1 }
  | _ => ((s.setEA (s.effAddr o)).markCrossing (s.crossesPage o)).advancePC o.width

/-- `Operand()` after the resolver (R38). The byte an immediate operand's address holds is the operand itself (R42). -/
def State.operandValue (s : State) (o : Operand) : Byte :=
  match o with
  | .imm b => b
  | _ => if s.eaAcc then s.a else s.readByte s.ea

/-- `Put(v)` (R39). -/
def State.put (s : State) (v : Byte) : State :=
  if s.eaAcc then s.setA v else s.writeByte s.ea v

end Sys2Proof.Machine
end

