-- ==== Sys2Proof/Machine/Phases.lean ====
section
/-! DEFINITION. One instruction's step around its handler, and the fetch of an instruction (spec/30_encoding.md R65). -/

namespace Sys2Proof.Machine

/-- Runs an instruction from the state before its step: fetch, resolve, the handler, and the accounting with the base cycles of
the instruction's catalog row (R65). A term no opcode byte encodes has no row and is refused by name (log entry 6). -/
def runInstr (i : Instr) (handler : State → State) (s : State) : Host.Outcome State Fault Refusal :=
  match i.opcode with
  | none => .refused .notInCatalog
  | some op => .next ((handler (s.beginStep.resolve i.operand)).account (catalogRow op).baseCycles)

/-- The instruction at `PC`. The bytes past its length are read too and not looked at; reads have no side effects (R32), so this
cannot be seen (log entry 4). -/
def State.fetchInstr (s : State) : Instr :=
  decodeFields (s.readByte s.pc) (s.readByte (s.pc + 1)) (s.readByte (s.pc + 2))

/-- Stores three bytes where the next instruction is fetched. -/
def State.placeAtPC (s : State) (b0 b1 b2 : Byte) : State :=
  ((s.writeByte s.pc b0).writeByte (s.pc + 1) b1).writeByte (s.pc + 2) b2

end Sys2Proof.Machine
end

