-- ==== Sys2Proof/Machine/Arithmetic.lean ====
section
/-! DEFINITION. ADC and SBC (spec/41_arithmetic.md). -/

namespace Sys2Proof.Machine

/-- The handler of ADC, add with carry (R71). -/
def handleAdc (o : Operand) (r : State) : State :=
  (r.addWithCarry (r.operandValue o)).setPenOp

/-- ADC, one step. -/
def execAdc (o : Operand) (s : State) : Host.Outcome State Fault Refusal := runInstr (.adc o) (handleAdc o) s

/-- The handler of SBC, subtract with borrow: the adder on the complement of the operand (R72). -/
def handleSbc (o : Operand) (r : State) : State :=
  (r.addWithCarry (r.operandValue o ^^^ 0xFF#8)).setPenOp

/-- SBC, one step. -/
def execSbc (o : Operand) (s : State) : Host.Outcome State Fault Refusal := runInstr (.sbc o) (handleSbc o) s

end Sys2Proof.Machine
end

