-- ==== Sys2Proof/Machine/Branch.lean ====
section
/-! DEFINITION. The eight branches: one flag against one polarity, by the helper `State.branch` (spec/46_branch.md R92). -/

namespace Sys2Proof.Machine

/-- The handler of BCC: carry clear (R93). -/
def handleBcc (r : State) : State :=
  r.branch (!r.flag .c)

/-- BCC, one step. -/
def execBcc (d : Byte) (s : State) : Host.Outcome State Fault Refusal := runInstr (.bcc d) handleBcc s

/-- The handler of BCS: carry set (R94). -/
def handleBcs (r : State) : State :=
  r.branch (r.flag .c)

/-- BCS, one step. -/
def execBcs (d : Byte) (s : State) : Host.Outcome State Fault Refusal := runInstr (.bcs d) handleBcs s

/-- The handler of BEQ: zero set (R95). -/
def handleBeq (r : State) : State :=
  r.branch (r.flag .z)

/-- BEQ, one step. -/
def execBeq (d : Byte) (s : State) : Host.Outcome State Fault Refusal := runInstr (.beq d) handleBeq s

/-- The handler of BNE: zero clear (R96). -/
def handleBne (r : State) : State :=
  r.branch (!r.flag .z)

/-- BNE, one step. -/
def execBne (d : Byte) (s : State) : Host.Outcome State Fault Refusal := runInstr (.bne d) handleBne s

/-- The handler of BMI: negative set (R97). -/
def handleBmi (r : State) : State :=
  r.branch (r.flag .n)

/-- BMI, one step. -/
def execBmi (d : Byte) (s : State) : Host.Outcome State Fault Refusal := runInstr (.bmi d) handleBmi s

/-- The handler of BPL: negative clear (R98). -/
def handleBpl (r : State) : State :=
  r.branch (!r.flag .n)

/-- BPL, one step. -/
def execBpl (d : Byte) (s : State) : Host.Outcome State Fault Refusal := runInstr (.bpl d) handleBpl s

/-- The handler of BVC: overflow clear (R99). -/
def handleBvc (r : State) : State :=
  r.branch (!r.flag .v)

/-- BVC, one step. -/
def execBvc (d : Byte) (s : State) : Host.Outcome State Fault Refusal := runInstr (.bvc d) handleBvc s

/-- The handler of BVS: overflow set (R100). -/
def handleBvs (r : State) : State :=
  r.branch (r.flag .v)

/-- BVS, one step. -/
def execBvs (d : Byte) (s : State) : Host.Outcome State Fault Refusal := runInstr (.bvs d) handleBvs s

end Sys2Proof.Machine
end

