-- ==== Sys2Proof/Machine/CompareBit.lean ====
section
/-! DEFINITION. CMP, CPX, CPY and BIT (spec/45_compare_bit.md). -/

namespace Sys2Proof.Machine

/-- The handler of CMP (R88); timing-sensitive by the spec's decision D11. -/
def handleCmp (o : Operand) (r : State) : State :=
  (r.compare r.a (r.operandValue o)).setPenOp

/-- CMP, one step. -/
def execCmp (o : Operand) (s : State) : Host.Outcome State Fault Refusal := runInstr (.cmp o) (handleCmp o) s

/-- The handler of CPX (R89). -/
def handleCpx (o : Operand) (r : State) : State :=
  r.compare r.x (r.operandValue o)

/-- CPX, one step. -/
def execCpx (o : Operand) (s : State) : Host.Outcome State Fault Refusal := runInstr (.cpx o) (handleCpx o) s

/-- The handler of CPY (R90). -/
def handleCpy (o : Operand) (r : State) : State :=
  r.compare r.y (r.operandValue o)

/-- CPY, one step. -/
def execCpy (o : Operand) (s : State) : Host.Outcome State Fault Refusal := runInstr (.cpy o) (handleCpy o) s

/-- The handler of BIT (R91). -/
def handleBit (o : Operand) (r : State) : State :=
  r.bitTest (r.operandValue o)

/-- BIT, one step. -/
def execBit (o : Operand) (s : State) : Host.Outcome State Fault Refusal := runInstr (.bit o) (handleBit o) s

end Sys2Proof.Machine
end

