-- ==== Sys2Proof/Machine/IncDec.lean ====
section
/-! DEFINITION. INC, DEC, INX, INY, DEX and DEY: modulo 256, `Z` and `N` only (spec/44_incdec.md). -/

namespace Sys2Proof.Machine

/-- The handler of INC (R81). -/
def handleInc (o : Operand) (r : State) : State :=
  (r.setZN (r.operandValue o + 1)).put (r.operandValue o + 1)

/-- INC, one step. -/
def execInc (o : Operand) (s : State) : Host.Outcome State Fault Refusal := runInstr (.inc o) (handleInc o) s

/-- The handler of DEC (R82). -/
def handleDec (o : Operand) (r : State) : State :=
  (r.setZN (r.operandValue o - 1)).put (r.operandValue o - 1)

/-- DEC, one step. -/
def execDec (o : Operand) (s : State) : Host.Outcome State Fault Refusal := runInstr (.dec o) (handleDec o) s

/-- The handler of INX (R83). -/
def handleInx (r : State) : State :=
  (r.setX (r.x + 1)).setZN (r.x + 1)

/-- INX, one step. -/
def execInx (s : State) : Host.Outcome State Fault Refusal := runInstr .inx handleInx s

/-- The handler of INY (R84). -/
def handleIny (r : State) : State :=
  (r.setY (r.y + 1)).setZN (r.y + 1)

/-- INY, one step. -/
def execIny (s : State) : Host.Outcome State Fault Refusal := runInstr .iny handleIny s

/-- The handler of DEX (R85). -/
def handleDex (r : State) : State :=
  (r.setX (r.x - 1)).setZN (r.x - 1)

/-- DEX, one step. -/
def execDex (s : State) : Host.Outcome State Fault Refusal := runInstr .dex handleDex s

/-- The handler of DEY (R86). -/
def handleDey (r : State) : State :=
  (r.setY (r.y - 1)).setZN (r.y - 1)

/-- DEY, one step. -/
def execDey (s : State) : Host.Outcome State Fault Refusal := runInstr .dey handleDey s

end Sys2Proof.Machine
end

