-- ==== Sys2Proof/Machine/LoadStoreJump.lean ====
section
/-! DEFINITION. The loads, the stores and JMP (spec/49_load_store_jump.md). -/

namespace Sys2Proof.Machine

/-- The handler of LDA (R124); timing-sensitive by the spec's decision D11. -/
def handleLda (o : Operand) (r : State) : State :=
  ((r.setA (r.operandValue o)).setZN (r.operandValue o)).setPenOp

/-- LDA, one step. -/
def execLda (o : Operand) (s : State) : Host.Outcome State Fault Refusal := runInstr (.lda o) (handleLda o) s

/-- The handler of LDX (R125); timing-sensitive by the spec's decision D11. -/
def handleLdx (o : Operand) (r : State) : State :=
  ((r.setX (r.operandValue o)).setZN (r.operandValue o)).setPenOp

/-- LDX, one step. -/
def execLdx (o : Operand) (s : State) : Host.Outcome State Fault Refusal := runInstr (.ldx o) (handleLdx o) s

/-- The handler of LDY (R126); timing-sensitive by the spec's decision D11. -/
def handleLdy (o : Operand) (r : State) : State :=
  ((r.setY (r.operandValue o)).setZN (r.operandValue o)).setPenOp

/-- LDY, one step. -/
def execLdy (o : Operand) (s : State) : Host.Outcome State Fault Refusal := runInstr (.ldy o) (handleLdy o) s

/-- The handler of STA: no flag, no timing sensitivity (R127). -/
def handleSta (r : State) : State :=
  r.put r.a

/-- STA, one step. -/
def execSta (o : Operand) (s : State) : Host.Outcome State Fault Refusal := runInstr (.sta o) handleSta s

/-- The handler of STX (R128). -/
def handleStx (r : State) : State :=
  r.put r.x

/-- STX, one step. -/
def execStx (o : Operand) (s : State) : Host.Outcome State Fault Refusal := runInstr (.stx o) handleStx s

/-- The handler of STY (R129). -/
def handleSty (r : State) : State :=
  r.put r.y

/-- STY, one step. -/
def execSty (o : Operand) (s : State) : Host.Outcome State Fault Refusal := runInstr (.sty o) handleSty s

/-- The handler of JMP, absolute and indirect (R130). -/
def handleJmp (r : State) : State :=
  r.setPC r.ea

/-- JMP, one step. -/
def execJmp (o : Operand) (s : State) : Host.Outcome State Fault Refusal := runInstr (.jmp o) handleJmp s

end Sys2Proof.Machine
end

