-- ==== Sys2Proof/Machine/Logical.lean ====
section
/-! DEFINITION. AND, ORA and EOR (spec/42_logical.md). -/

namespace Sys2Proof.Machine

/-- The result of a logical instruction goes to the accumulator, with `Z` and `N`; the family is timing-sensitive to a page
crossing (spec/42_logical.md). -/
def State.logical (s : State) (result : Byte) : State := ((s.setZN result).setA result).setPenOp

/-- The handler of AND (R74). -/
def handleAnd (o : Operand) (r : State) : State :=
  r.logical (r.a &&& r.operandValue o)

/-- AND, one step. -/
def execAnd (o : Operand) (s : State) : Host.Outcome State Fault Refusal := runInstr (.and o) (handleAnd o) s

/-- The handler of ORA (R75). -/
def handleOra (o : Operand) (r : State) : State :=
  r.logical (r.a ||| r.operandValue o)

/-- ORA, one step. -/
def execOra (o : Operand) (s : State) : Host.Outcome State Fault Refusal := runInstr (.ora o) (handleOra o) s

/-- The handler of EOR (R76). -/
def handleEor (o : Operand) (r : State) : State :=
  r.logical (r.a ^^^ r.operandValue o)

/-- EOR, one step. -/
def execEor (o : Operand) (s : State) : Host.Outcome State Fault Refusal := runInstr (.eor o) (handleEor o) s

end Sys2Proof.Machine
end

