-- ==== Sys2Proof/Machine/ShiftRotate.lean ====
section
/-! DEFINITION. ASL, LSR, ROL and ROR: the operand is the accumulator or a memory byte, read once
and written once (spec/43_shift_rotate.md). -/

namespace Sys2Proof.Machine

/-- The end of a shift or rotate: the flags, then the result back to the operand's place (R39, R77 to R80). -/
def State.shiftTo (s : State) (out : Bool) (result : Byte) : State := (s.setShiftFlags out result).put result

/-- The handler of ASL (R77). -/
def handleAsl (o : Operand) (r : State) : State :=
  r.shiftTo ((r.operandValue o).getLsbD 7) (aslResult (r.operandValue o))

/-- ASL, one step. -/
def execAsl (o : Operand) (s : State) : Host.Outcome State Fault Refusal := runInstr (.asl o) (handleAsl o) s

/-- The handler of LSR (R78). -/
def handleLsr (o : Operand) (r : State) : State :=
  r.shiftTo ((r.operandValue o).getLsbD 0) (lsrResult (r.operandValue o))

/-- LSR, one step. -/
def execLsr (o : Operand) (s : State) : Host.Outcome State Fault Refusal := runInstr (.lsr o) (handleLsr o) s

/-- The handler of ROL (R79). -/
def handleRol (o : Operand) (r : State) : State :=
  r.shiftTo ((r.operandValue o).getLsbD 7) (rolResult (r.operandValue o) (r.flag .c))

/-- ROL, one step. -/
def execRol (o : Operand) (s : State) : Host.Outcome State Fault Refusal := runInstr (.rol o) (handleRol o) s

/-- The handler of ROR (R80). -/
def handleRor (o : Operand) (r : State) : State :=
  r.shiftTo ((r.operandValue o).getLsbD 0) (rorResult (r.operandValue o) (r.flag .c))

/-- ROR, one step. -/
def execRor (o : Operand) (s : State) : Host.Outcome State Fault Refusal := runInstr (.ror o) (handleRor o) s

end Sys2Proof.Machine
end

