-- ==== Sys2Proof/Machine/Stack.lean ====
section
/-! DEFINITION. The stack and subroutine instructions, BRK and RTI (spec/47_stack.md). -/

namespace Sys2Proof.Machine

/-- The handler of PHA (R101). -/
def handlePha (r : State) : State :=
  r.push8 r.a

/-- PHA, one step. -/
def execPha (s : State) : Host.Outcome State Fault Refusal := runInstr .pha handlePha s

/-- The handler of PHP: the pushed copy has `B` set, `P` is unchanged (R102). -/
def handlePhp (r : State) : State :=
  r.push8 r.pushedP

/-- PHP, one step. -/
def execPhp (s : State) : Host.Outcome State Fault Refusal := runInstr .php handlePhp s

/-- The handler of PLA (R103). -/
def handlePla (r : State) : State :=
  (r.pull8.setA r.pulled8).setZN r.pulled8

/-- PLA, one step. -/
def execPla (s : State) : Host.Outcome State Fault Refusal := runInstr .pla handlePla s

/-- The handler of PLP: all bits of the pulled byte, then `U` forced (R104). -/
def handlePlp (r : State) : State :=
  r.pull8.setP r.pulled8

/-- PLP, one step. -/
def execPlp (s : State) : Host.Outcome State Fault Refusal := runInstr .plp handlePlp s

/-- The handler of JSR: pushes the address of its own last byte (R105). -/
def handleJsr (r : State) : State :=
  (r.push16 (r.pc - 1)).setPC r.ea

/-- JSR, one step. -/
def execJsr (target : Addr) (s : State) : Host.Outcome State Fault Refusal := runInstr (.jsr target) handleJsr s

/-- The handler of RTS: the pulled word plus 1 (R106). -/
def handleRts (r : State) : State :=
  r.pull16.setPC (r.pulled16 + 1)

/-- RTS, one step. -/
def execRts (s : State) : Host.Outcome State Fault Refusal := runInstr .rts handleRts s

/-- The handler of RTI (R107). -/
def handleRti (r : State) : State :=
  r.returnFromInterrupt

/-- RTI, one step. -/
def execRti (s : State) : Host.Outcome State Fault Refusal := runInstr .rti handleRti s

/-- The handler of BRK (R108). -/
def handleBrk (r : State) : State :=
  r.takeInterrupt

/-- BRK, one step. -/
def execBrk (s : State) : Host.Outcome State Fault Refusal := runInstr .brk handleBrk s

end Sys2Proof.Machine
end

