-- ==== Sys2Proof/Machine/TransferFlagNop.lean ====
section
/-! DEFINITION. The register transfers, the flag sets and clears, and the NOP handler (spec/48_transfer_flag_nop.md). -/

namespace Sys2Proof.Machine

/-- The handler of TAX (R109). -/
def handleTax (r : State) : State :=
  (r.setX r.a).setZN r.a

/-- TAX, one step. -/
def execTax (s : State) : Host.Outcome State Fault Refusal := runInstr .tax handleTax s

/-- The handler of TAY (R110). -/
def handleTay (r : State) : State :=
  (r.setY r.a).setZN r.a

/-- TAY, one step. -/
def execTay (s : State) : Host.Outcome State Fault Refusal := runInstr .tay handleTay s

/-- The handler of TXA (R111). -/
def handleTxa (r : State) : State :=
  (r.setA r.x).setZN r.x

/-- TXA, one step. -/
def execTxa (s : State) : Host.Outcome State Fault Refusal := runInstr .txa handleTxa s

/-- The handler of TYA (R112). -/
def handleTya (r : State) : State :=
  (r.setA r.y).setZN r.y

/-- TYA, one step. -/
def execTya (s : State) : Host.Outcome State Fault Refusal := runInstr .tya handleTya s

/-- The handler of TSX (R113). -/
def handleTsx (r : State) : State :=
  (r.setX r.sp).setZN r.sp

/-- TSX, one step. -/
def execTsx (s : State) : Host.Outcome State Fault Refusal := runInstr .tsx handleTsx s

/-- The handler of TXS: no flag (R114). -/
def handleTxs (r : State) : State :=
  r.setSP r.x

/-- TXS, one step. -/
def execTxs (s : State) : Host.Outcome State Fault Refusal := runInstr .txs handleTxs s

/-- The handler of SEC (R115). -/
def handleSec (r : State) : State :=
  r.setFlag .c true

/-- SEC, one step. -/
def execSec (s : State) : Host.Outcome State Fault Refusal := runInstr .sec handleSec s

/-- The handler of CLC (R116). -/
def handleClc (r : State) : State :=
  r.setFlag .c false

/-- CLC, one step. -/
def execClc (s : State) : Host.Outcome State Fault Refusal := runInstr .clc handleClc s

/-- The handler of SEI (R117). -/
def handleSei (r : State) : State :=
  r.setFlag .i true

/-- SEI, one step. -/
def execSei (s : State) : Host.Outcome State Fault Refusal := runInstr .sei handleSei s

/-- The handler of CLI (R118). -/
def handleCli (r : State) : State :=
  r.setFlag .i false

/-- CLI, one step. -/
def execCli (s : State) : Host.Outcome State Fault Refusal := runInstr .cli handleCli s

/-- The handler of SED (R119). -/
def handleSed (r : State) : State :=
  r.setFlag .d true

/-- SED, one step. -/
def execSed (s : State) : Host.Outcome State Fault Refusal := runInstr .sed handleSed s

/-- The handler of CLD (R120). -/
def handleCld (r : State) : State :=
  r.setFlag .d false

/-- CLD, one step. -/
def execCld (s : State) : Host.Outcome State Fault Refusal := runInstr .cld handleCld s

/-- The handler of CLV (R121). -/
def handleClv (r : State) : State :=
  r.setFlag .v false

/-- CLV, one step. -/
def execClv (s : State) : Host.Outcome State Fault Refusal := runInstr .clv handleClv s

/-- The handler of NOP, the documented no-operation (R122). -/
def handleNop (r : State) : State :=
  r

/-- NOP, one step. -/
def execNop (s : State) : Host.Outcome State Fault Refusal := runInstr .nop handleNop s

/-- The NOP handler on an undocumented byte: six bytes mark the page-crossing penalty (R123). -/
def handleNopUndoc (op : Byte) (r : State) : State :=
  if nopPenaltyBytes.contains op then r.setPenOp else r

/-- The NOP handler on an undocumented byte, one step. -/
def execNopUndoc (op : Byte) (o : Operand) (s : State) : Host.Outcome State Fault Refusal :=
  runInstr (.nopUndoc op o) (handleNopUndoc op) s

end Sys2Proof.Machine
end

