-- ==== Sys2Proof/Machine/Step.lean ====
section
/-! DEFINITION. One step of the core (spec/30_encoding.md R65), and the placing of an instruction where the next step fetches. -/

namespace Sys2Proof.Machine

/-- `step()`: the instruction at `PC`, whole. -/
def step (s : State) : Host.Outcome State Fault Refusal := exec s.fetchInstr s

/-- The state with the instruction whose low `nbits` bits are those of `w`, and whose other bits are 0, stored at `PC`. The core
fetches at `PC` and needs nothing else (log entry 3). -/
def State.withFetchWord (s : State) (nbits w : Nat) : State :=
  s.placeAtPC (tableByte nbits w 0) (tableByte nbits w 1) (tableByte nbits w 2)

end Sys2Proof.Machine
end

