-- ==== Sys2Proof/Machine/HostInterface.lean ====
section
/-! DEFINITION. What the host can do to the core between two steps, and the launch of a run (spec/70_reset_and_hazards.md R145 to
R147). Construction is `State.construct`; a step is `step`. -/

namespace Sys2Proof.Machine

/-- `setProgramCounter(address)`: reduced modulo 2^16, no other state changes, no cycles (R146). -/
def State.setProgramCounter (s : State) (address : Nat) : State := s.setPC (BitVec.ofNat 16 address)

/-- `getProgramCounter()` (R146). -/
def State.getProgramCounter (s : State) : Addr := s.pc

/-- The cycle accessor (R139, R146). -/
def State.cycleCount (s : State) : Nat := s.cycles

/-- The instruction accessor (R139, R146). -/
def State.instructionCount (s : State) : Nat := s.instret

/-- The host's `read(address)`: outside the store it fails at the interface, not in the core (R146). -/
def State.hostRead (s : State) (address : Nat) : Except Fault Byte :=
  if address < Config.memSize then .ok (s.mem.read address) else .error (.boundsViolation address)

/-- The bytes of `bytes` stored from `offset` up, in rising addresses. -/
def Memory.writeAll (m : Memory) (offset : Nat) : List Byte → Memory
  | [] => m
  | v :: bytes => Memory.writeAll (m.write offset v) (offset + 1) bytes

/-- The operations of R146 that change something. -/
inductive HostOp
  | step
  | setProgramCounter (address : Nat)
  | write (address : Nat) (v : Byte)
  | bulkLoad (source : List Byte) (offset length : Nat)
  deriving DecidableEq, Repr

/-- One host operation. A write or a load outside `0..MEM_SIZE-1` fails and changes nothing (R146, U6). `bulkLoad` stores the first
`length` bytes of its source from `offset` up. The spec gives its arguments only, so these are DESIGN CHOICES (log entry 20): the
bytes stored; that a short source is refused before the bounds are checked, also where the range leaves the store; that a load of
length 0 is checked by its offset, which fails above `MEM_SIZE` and not at it; and that the failure names the first address outside
the store. -/
def hostStep (op : HostOp) (s : State) : Host.Outcome State Fault Refusal :=
  match op with
  | .step => Sys2Proof.Machine.step s
  | .setProgramCounter address => .next (s.setProgramCounter address)
  | .write address v =>
    if address < Config.memSize then .next { s with mem := s.mem.write address v }
    else .fault (.boundsViolation address)
  | .bulkLoad source offset length =>
    if source.length < length then .refused .bulkLoadShortSource
    else if offset + length ≤ Config.memSize then
      .next { s with mem := s.mem.writeAll offset (source.take length) }
    else .fault (.boundsViolation (max offset Config.memSize))

/-- When the host stops calling `step()` (R147). -/
inductive StopRule
  | afterSteps (n : Nat)
  | atSelfLoop (bound : Nat)
  deriving DecidableEq, Repr

/-- The launch of a run: the memory at construction, the program counter set before the first step if any, the stop rule (R147). -/
structure Launch where
  mem0 : Memory
  pc0 : Option Addr
  stop : StopRule
  deriving DecidableEq, Repr

/-- The state before the first step (R144, R147). -/
def Launch.start (l : Launch) : State :=
  match l.pc0 with
  | none => State.construct l.mem0
  | some address => (State.construct l.mem0).setPC address

/-- Exactly `n` steps. -/
def runSteps : Nat → State → Host.Outcome State Fault Refusal
  | 0, s => .next s
  | n + 1, s =>
    match Sys2Proof.Machine.step s with
    | .next t => runSteps n t
    | .fault f => .fault f
    | .refused r => .refused r

/-- Steps up to and including the first whose end `PC` equals its start `PC`, at most `bound` of them. -/
def runToSelfLoop : Nat → State → Host.Outcome State Fault Refusal
  | 0, s => .next s
  | bound + 1, s =>
    match Sys2Proof.Machine.step s with
    | .next t => if t.pc = s.pc then .next t else runToSelfLoop bound t
    | .fault f => .fault f
    | .refused r => .refused r

/-- The end state of a run: the state after the last step the stop rule allows (R147). -/
def Launch.run (l : Launch) : Host.Outcome State Fault Refusal :=
  match l.stop with
  | .afterSteps n => runSteps n l.start
  | .atSelfLoop bound => runToSelfLoop bound l.start

end Sys2Proof.Machine
end

