-- ==== Sys2Proof/Safety.lean ====
section
/-! DEFINITION. The vocabulary of claims: the invariant of the machine, what an instruction leaves unchanged, how far it moves,
and which states software cannot tell apart. -/

namespace Sys2Proof.Machine

/-- The invariant of the machine: the memory list is canonical (log entry 2) and the constant flag is 1 (spec/10_state.md R13). -/
abbrev State.Inv (s : State) : Prop := s.mem.wf = true ∧ s.flag .u = true

/-- The data registers and the stack pointer (R7, R11). -/
inductive Reg
  | a | x | y | sp
  deriving DecidableEq, Repr

/-- The value of a register. -/
def State.reg (s : State) : Reg → Byte
  | .a => s.a
  | .x => s.x
  | .y => s.y
  | .sp => s.sp

/-- Every register but the listed ones keeps its value. -/
def RegsKept (except : List Reg) (s t : State) : Prop := ∀ r, r ∉ except → t.reg r = s.reg r

/-- Every flag but the listed ones and the constant flag keeps its value, and the constant flag is 1 (R13). -/
def FlagsKept (except : List Flag) (s t : State) : Prop :=
  t.flag .u = true ∧ ∀ f, f ≠ .u → f ∉ except → t.flag f = s.flag f

/-- `Z` and `N` are those of `v` (R18). -/
def ZeroNegativeOf (v : Byte) (t : State) : Prop :=
  t.flag .z = decide (v.toNat = 0) ∧ t.flag .n = decide (128 ≤ v.toNat)

/-- Every byte of memory reads as before. -/
def MemoryKept (s t : State) : Prop := ∀ addr : Addr, t.readByte addr = s.readByte addr

/-- Every byte of memory outside the listed addresses reads as before. -/
def MemoryKeptExcept (written : List Addr) (s t : State) : Prop :=
  ∀ addr : Addr, addr ∉ written → t.readByte addr = s.readByte addr

/-- The instruction counter moves by one and the cycle counter by `n`. -/
def Charges (n : Nat) (s t : State) : Prop := t.cycles = s.cycles + n ∧ t.instret = s.instret + 1

/-- The operand value `M` of an instruction run from `s`: the accumulator, the operand byte itself, or the byte at the effective
address (R38, R42). -/
def State.operandByte (s : State) (o : Operand) : Byte :=
  match o with
  | .acc => s.a
  | .imm b => b
  | _ => s.readByte (s.beginStep.effAddr o)

/-- The instruction with operand `o` and opcode byte `op` ends at the next instruction, and costs the base cycles of its row, and
one more where `penalty` holds (R10, R67). -/
def EndsAfter (o : Operand) (op : Byte) (penalty : Bool) (s t : State) : Prop :=
  t.pc = s.pc + BitVec.ofNat 16 (1 + o.width) ∧ Charges ((catalogRow op).baseCycles + penalty.toNat) s t

/-- The byte at `addr` is `v`, and every other byte reads as before. -/
def StoresByte (addr : Addr) (v : Byte) (s t : State) : Prop :=
  t.readByte addr = v ∧ MemoryKeptExcept [addr] s t

/-- `i` is encoded by `op` and the bytes of `o`; it completes with `v` in register `dest` and its `Z` and `N`, and changes no other
register, flag or byte of memory but `PC` and the counters. -/
def LoadsRegister (i : Instr) (o : Operand) (op : Byte) (penalty : Bool) (dest : Reg) (v : Byte) (s : State) : Prop :=
  encode i = op :: o.bytes ∧
    ∃ t, exec i s = .next t ∧ t.reg dest = v ∧ ZeroNegativeOf v t ∧ RegsKept [dest] s t ∧ FlagsKept [.z, .n] s t ∧
      MemoryKept s t ∧ EndsAfter o op penalty s t

/-- `i` completes with `v` stored at the effective address of `o`, and changes no register, flag or other byte of memory but `PC`
and the counters. -/
def StoresRegister (i : Instr) (o : Operand) (op : Byte) (v : Byte) (s : State) : Prop :=
  encode i = op :: o.bytes ∧
    ∃ t, exec i s = .next t ∧ StoresByte (s.beginStep.effAddr o) v s t ∧ RegsKept [] s t ∧ t.p = s.p ∧
      EndsAfter o op false s t

/-- `i` completes with the byte `r` written back to the operand's place, the accumulator or the byte at the effective address,
`Z` and `N` those of `r`, the flags in `flags` free, and nothing else changed but `PC` and the counters. -/
def WritesBack (i : Instr) (o : Operand) (op : Byte) (flags : List Flag) (r : Byte) (s t : State) : Prop :=
  exec i s = .next t ∧ ZeroNegativeOf r t ∧ FlagsKept flags s t ∧
    (o.mode = .acc → t.a = r ∧ RegsKept [.a] s t ∧ MemoryKept s t) ∧
    (o.mode ≠ .acc → RegsKept [] s t ∧ StoresByte (s.beginStep.effAddr o) r s t) ∧
    EndsAfter o op false s t

/-- `i` compares the register value `r` with the operand value `m`: `C` where `r` is at least `m` as unsigned numbers, `Z` where they
are equal, `N` from the difference modulo 256; nothing is stored (R87). -/
def Compares (i : Instr) (o : Operand) (op : Byte) (penalty : Bool) (r m : Byte) (s : State) : Prop :=
  encode i = op :: o.bytes ∧
    ∃ t, exec i s = .next t ∧ t.flag .c = decide (m.toNat ≤ r.toNat) ∧ t.flag .z = decide (r = m) ∧
      t.flag .n = decide (128 ≤ (r.toNat + 256 - m.toNat) % 256) ∧ FlagsKept [.c, .z, .n] s t ∧ RegsKept [] s t ∧
      MemoryKept s t ∧ EndsAfter o op penalty s t

/-- `i`, a branch with displacement byte `d`, goes to the next instruction, or where `taken` holds to the address `d` away from it
as a signed number, for one cycle more, two where that address is in another page; nothing else changes (R92). -/
def Branches (i : Instr) (op d : Byte) (taken : Bool) (s : State) : Prop :=
  let next := s.pc + 2
  let target := BitVec.ofInt 16 (next.toNat + d.toInt)
  encode i = [op, d] ∧
    ∃ t, exec i s = .next t ∧ RegsKept [] s t ∧ t.p = s.p ∧ MemoryKept s t ∧
      (taken = false → t.pc = next ∧ Charges 2 s t) ∧
      (taken = true → t.pc = target ∧
        Charges (if target.toNat / 256 = next.toNat / 256 then 3 else 4) s t)

/-- `i` completes with flag `f` equal to `v` and no other flag, register or byte of memory changed (R115 to R121). -/
def SetsFlag (i : Instr) (op : Byte) (f : Flag) (v : Bool) (s : State) : Prop :=
  encode i = [op] ∧
    ∃ t, exec i s = .next t ∧ t.flag f = v ∧ FlagsKept [f] s t ∧ RegsKept [] s t ∧ MemoryKept s t ∧
      EndsAfter .imp op false s t

/-- Two states that differ at most in the scratch registers (R24). -/
def SameButScratch (s t : State) : Prop :=
  s.a = t.a ∧ s.x = t.x ∧ s.y = t.y ∧ s.sp = t.sp ∧ s.p = t.p ∧ s.pc = t.pc ∧
    s.cycles = t.cycles ∧ s.instret = t.instret ∧ s.mem = t.mem

/-- The state with other counter values. -/
def State.withCounters (s : State) (cycles instret : Nat) : State := { s with cycles := cycles, instret := instret }

/-- The state with another value of a flag, all other bits of `P` as they are. -/
def State.withFlag (s : State) (f : Flag) (v : Bool) : State :=
  { s with p := if v then s.p ||| f.mask else s.p &&& ~~~f.mask }

/-- The handlers that write each flag (R17). -/
def flagWriters : Flag → List Handler
  | .c => [.adc, .sbc, .asl, .lsr, .rol, .ror, .cmp, .cpx, .cpy, .sec, .clc, .plp, .rti]
  | .z | .n => [.adc, .sbc, .and, .ora, .eor, .asl, .lsr, .rol, .ror, .inc, .dec, .inx, .iny, .dex, .dey, .cmp, .cpx, .cpy,
      .bit, .lda, .ldx, .ldy, .pla, .tax, .tay, .txa, .tya, .tsx, .plp, .rti]
  | .i => [.sei, .cli, .brk, .plp, .rti]
  | .d => [.sed, .cld, .plp, .rti]
  | .b => [.plp, .rti]
  | .u => []
  | .v => [.adc, .sbc, .bit, .clv, .plp, .rti]

/-- The handlers that write each register in some form (R8, R11). -/
def regWriters : Reg → List Handler
  | .a => [.adc, .sbc, .and, .ora, .eor, .asl, .lsr, .rol, .ror, .lda, .pla, .txa, .tya]
  | .x => [.ldx, .inx, .dex, .tax, .tsx]
  | .y => [.ldy, .iny, .dey, .tay]
  | .sp => [.pha, .php, .pla, .plp, .jsr, .rts, .rti, .brk, .txs]

/-- The handlers that write `PC` again after the sequential advance: jumps, returns, BRK and the branches (R10). -/
def pcWriters : List Handler :=
  [.brk, .jsr, .rts, .rti, .jmp, .bcc, .bcs, .beq, .bne, .bmi, .bpl, .bvc, .bvs]

/-- The handlers that write memory at the effective address (R39). -/
def memoryWriters : List Handler := [.sta, .stx, .sty, .asl, .lsr, .rol, .ror, .inc, .dec]

/-- How many bytes a handler pushes on the stack (R37, R101, R102, R105, R108). -/
def pushCount : Handler → Nat
  | .pha | .php => 1
  | .jsr => 2
  | .brk => 3
  | _ => 0

end Sys2Proof.Machine
end

