-- ==== Sys2Proof/Certificates/Slice0/Obligations.lean ====
section
/-! DEFINITION. The statements about the Jelite 6502 core, from the numbered rules of spec/. The vocabulary is that of Safety.lean. A
docstring names the spec's own decision (D<n> of 92_eei_decisions.md) or general-knowledge mark a clause rests on; such a statement
is 'derived'. -/

open Sys2Proof Sys2Proof.Machine

/-! ## Encoding and decoding -/

/-- R55, R58, R61 (which byte is which instruction is general knowledge but for four bytes, log entry 11): every well-formed
instruction, with every operand, decodes from its own bytes, whatever follows them. -/
def Obligations.DecodeOfEncode : Prop :=
  ∀ (i : Instr) (rest : List Byte), i.wf = true → decode (encode i ++ rest) = .ok (i, rest)

/-- R62, R64 (the bytes of each instruction: log entry 11): whatever decodes is well-formed, and its bytes are the ones it was read
from. -/
def Obligations.EncodeOfDecode : Prop :=
  ∀ (bytes rest : List Byte) (i : Instr), decode bytes = .ok (i, rest) → i.wf = true ∧ encode i ++ rest = bytes

/-- R58, R60, R62: every opcode byte with enough bytes after it decodes; the length is one and the operand bytes of the mode of the
byte's row, and the instruction runs the row's handler in the row's mode. With too few bytes the decoder says which opcode. -/
def Obligations.DecodeFollowsTheCatalog : Prop :=
  ∀ (op : Byte) (rest : List Byte),
    ((catalogRow op).mode.width ≤ rest.length →
      ∃ i, decode (op :: rest) = .ok (i, rest.drop (catalogRow op).mode.width) ∧
        i.handler = (catalogRow op).handler ∧ i.operand.mode = (catalogRow op).mode) ∧
    (rest.length < (catalogRow op).mode.width → decode (op :: rest) = .error (.missingOperand op))

/-- R61 (the bytes 0xA9, 0x4C, 0x69, 0x90 are the source's, the others general knowledge): words written out bit by bit decode to
the instructions they stand for. -/
def Obligations.WordsDecodeAsTheCatalogSays : Prop :=
  decode [0b10101001, 0x42] = .ok (.lda (.imm 0x42), []) ∧
  decode [0b01001100, 0x34, 0x12] = .ok (.jmp (.abs 0x1234), []) ∧
  decode [0b01101001, 0x01] = .ok (.adc (.imm 0x01), []) ∧
  decode [0b10010000, 0x7F] = .ok (.bcc 0x7F, []) ∧
  decode [0b01101100, 0xFF, 0x30] = .ok (.jmp (.ind 0x30FF), []) ∧
  decode [0b10010110, 0x10] = .ok (.stx (.zpy 0x10), []) ∧
  decode [0b00001010, 0x99] = .ok (.asl .acc, [0x99]) ∧
  decode [0b11101011, 0x01] = .ok (.nopUndoc 0xEB (.imm 0x01), [])

/-- R63 (D15, D16): the undocumented bytes are 105 different bytes; each decodes to a no-op with the operand of its row, and no other
byte does. -/
def Obligations.UndocumentedBytesAreNoOps : Prop :=
  undocumentedBytes.length = 105 ∧ undocumentedBytes.Nodup ∧
  ∀ op b1 b2 : Byte,
    (op ∈ undocumentedBytes →
      decodeFields op b1 b2 = .nopUndoc op (operandOf (catalogRow op).mode b1 b2) ∧ (catalogRow op).handler = .nop) ∧
    (op ∉ undocumentedBytes → ∀ op' o, decodeFields op b1 b2 ≠ .nopUndoc op' o)

/-! ## The step -/

/-- R65: when the bytes at `PC` decode to an instruction, the step is that instruction. The step adds nothing around it: moving past
the instruction's bytes and the accounting are in `exec`. -/
def Obligations.StepRunsTheDecodedInstr : Prop :=
  ∀ (s : State) (i : Instr) (rest : List Byte),
    decode [s.readByte s.pc, s.readByte (s.pc + 1), s.readByte (s.pc + 2)] = .ok (i, rest) →
      i.wf = true ∧ step s = exec i s

/-- R68: from every state another step is possible. -/
def Obligations.NoStateBlocksTheStep : Prop :=
  ∀ s : State, ∃ t, step s = .next t

/-- R131 (and log entry 6): every instruction that some opcode byte encodes completes from every state; a term that none encodes is
refused by name. -/
def Obligations.WellFormedInstrCompletes : Prop :=
  ∀ (i : Instr) (s : State),
    (i.wf = true → ∃ t, exec i s = .next t) ∧ (i.wf = false → exec i s = .refused .notInCatalog)

/-- R23: the instruction counter grows by exactly 1 in every step. -/
def Obligations.StepCountsOneInstr : Prop :=
  ∀ s t : State, step s = .next t → t.instret = s.instret + 1

/-- R22, R67 (numbers: D16, D17): a step charges at least 2 and at most 8 cycles, so the cycle counter always grows. -/
def Obligations.StepChargesTwoToEightCycles : Prop :=
  ∀ s t : State, step s = .next t → s.cycles + 2 ≤ t.cycles ∧ t.cycles ≤ s.cycles + 8

/-- R67, R66: outside the branches, an instruction costs the base cycles of its row, and one more exactly where it ends with both
penalty indicators set. -/
def Obligations.CyclesAreBaseAndPenalty : Prop :=
  ∀ (i : Instr) (op : Byte) (s t : State),
    i.opcode = some op → (catalogRow op).mode ≠ .rel → exec i s = .next t →
      t.cycles = s.cycles + (catalogRow op).baseCycles + (if t.penAddr = true ∧ t.penOp = true then 1 else 0)

/-- R66 (D11 for LDA, LDX, LDY and CMP, D12 for the rest, general knowledge for the six bytes): which instructions end with `pen_op`
set. -/
def Obligations.TimingSensitiveHandlers : Prop :=
  ∀ (i : Instr) (s t : State), exec i s = .next t →
    (t.penOp = true ↔
      i.handler ∈ [Handler.adc, .sbc, .and, .ora, .eor, .lda, .ldx, .ldy, .cmp] ∨
      ∃ op o, i = .nopUndoc op o ∧ op ∈ [0x1C#8, 0x3C#8, 0x5C#8, 0x7C#8, 0xDC#8, 0xFC#8])

/-- R10: an instruction that is no jump, return, BRK or branch ends at the byte after its last one. -/
def Obligations.OtherInstrsAreSequential : Prop :=
  ∀ (i : Instr) (s t : State), exec i s = .next t → i.handler ∉ pcWriters →
    t.pc = s.pc + BitVec.ofNat 16 (encode i).length

/-- R19, R20, R21, R54: the effective address, the sentinel, the displacement and `pen_addr` end as the resolver of the
instruction's operand leaves them; no handler writes them. -/
def Obligations.OnlyResolversWriteTheScratch : Prop :=
  ∀ (i : Instr) (s t : State), exec i s = .next t →
    let r := s.beginStep.resolve i.operand
    t.ea = r.ea ∧ t.eaAcc = r.eaAcc ∧ t.rel = r.rel ∧ t.penAddr = r.penAddr

/-! ## Invariants and whole-machine rules -/

/-- R13, R32 (and log entry 2): every step keeps the memory list canonical and the constant flag at 1. -/
def Obligations.StepKeepsTheInvariant : Prop :=
  ∀ s t : State, s.Inv → step s = .next t → t.Inv

/-- R13, R144: a core constructed over any canonical memory meets the invariant, and so does the model's reset state. -/
def Obligations.ConstructMeetsTheInvariant : Prop :=
  (∀ mem0 : Memory, mem0.wf = true → (State.construct mem0).Inv) ∧ State.reset.Inv

/-- R17: a flag changes only under the instructions the table of R17 lists as its writers; the constant flag changes under none. The
premise rules out the states with the constant flag at 0, which no run reaches. -/
def Obligations.FlagsChangeOnlyUnderTheirWriters : Prop :=
  ∀ (i : Instr) (s t : State) (f : Flag), s.flag .u = true → exec i s = .next t →
    i.handler ∉ flagWriters f → t.flag f = s.flag f

/-- R8, R11: a register changes only under the instructions listed as its writers; the shifts write `A` in accumulator form only. -/
def Obligations.RegsChangeOnlyUnderTheirWriters : Prop :=
  ∀ (i : Instr) (s t : State) (r : Reg), exec i s = .next t →
    (i.handler ∉ regWriters r → t.reg r = s.reg r) ∧
    (i.handler ∈ [Handler.asl, .lsr, .rol, .ror] → i.operand.mode ≠ .acc → t.reg r = s.reg r)

/-- R37, R39, R54 (the stack order: D4): the only bytes an instruction changes are the byte at its effective address, for the stores
and the instructions that write back to memory, and the bytes it pushes, from `SP` down in the stack page. -/
def Obligations.MemoryChangesOnlyWhereWritten : Prop :=
  ∀ (i : Instr) (s t : State) (addr : Addr), exec i s = .next t → t.readByte addr ≠ s.readByte addr →
    (i.handler ∈ memoryWriters ∧ i.operand.mode ≠ .acc ∧ addr = s.beginStep.effAddr i.operand) ∨
    (∃ k : Nat, k < pushCount i.handler ∧ addr = stackAddr (s.sp - BitVec.ofNat 8 k))

/-- R14, R15, R16 (D7, D8, D10, D25): the interrupt-disable, decimal and break flags affect nothing. An instruction that neither
writes one of them nor pushes `P` does the same whatever they hold, and leaves them as they were. -/
def Obligations.InterruptDecimalBreakFlagsAreInert : Prop :=
  ∀ (i : Instr) (s t : State) (f : Flag) (v : Bool),
    f ∈ [Flag.i, .d, .b] → i.handler ∉ [Handler.sei, .cli, .sed, .cld, .php, .plp, .rti, .brk] →
      exec i s = .next t → exec i (s.withFlag f v) = .next (t.withFlag f v)

/-- R139, R150: no step depends on the two counters; they only grow by what the step charges. -/
def Obligations.CountersAffectNothing : Prop :=
  ∀ (s t : State) (c n : Nat), step s = .next t →
    step (s.withCounters c n) = .next (t.withCounters (c + (t.cycles - s.cycles)) (n + 1))

/-- R24: the scratch registers cannot be observed; two states that differ only in them step to states that differ only in them. -/
def Obligations.ScratchCannotBeObserved : Prop :=
  ∀ s₁ s₂ t₁ : State, SameButScratch s₁ s₂ → step s₁ = .next t₁ → ∃ t₂, step s₂ = .next t₂ ∧ SameButScratch t₁ t₂

/-! ## Addressing modes: the resolver of the operand whose bytes stand at `PC` -/

/-- R40, R41, R42, R43, R46, R47, R38 (that the implied and relative resolvers leave `ea` and `ea_acc` as they were: the spec's decision
D20, log entry 19): what the resolvers that add no index write, and the operand value after two of them. -/
def Obligations.DirectModesResolve : Prop :=
  ∀ s : State,
    let b := s.readByte s.pc
    let h := s.readByte (s.pc + 1)
    s.resolve (operandOf .imp b h) = s ∧
    s.resolve (operandOf .acc b h) = { s with eaAcc := true } ∧
    s.resolve (operandOf .imm b h) = { s with ea := s.pc, eaAcc := false, pc := s.pc + 1 } ∧
    s.resolve (operandOf .zp b h) = { s with ea := BitVec.ofNat 16 b.toNat, eaAcc := false, pc := s.pc + 1 } ∧
    s.resolve (operandOf .rel b h) = { s with rel := BitVec.ofInt 16 b.toInt, pc := s.pc + 1 } ∧
    s.resolve (operandOf .abs b h) =
      { s with ea := BitVec.ofNat 16 (h.toNat * 256 + b.toNat), eaAcc := false, pc := s.pc + 2 } ∧
    (s.resolve .acc).operandValue .acc = s.a ∧ (s.resolve (.imm b)).operandValue (.imm b) = s.readByte s.pc

/-- R44, R45: the indexed zero-page modes wrap within page zero and mark no page crossing. -/
def Obligations.ZeroPageIndexedModesWrap : Prop :=
  ∀ s : State,
    let b := s.readByte s.pc
    let h := s.readByte (s.pc + 1)
    s.resolve (operandOf .zpx b h) =
      { s with ea := BitVec.ofNat 16 ((b.toNat + s.x.toNat) % 256), eaAcc := false, pc := s.pc + 1 } ∧
    s.resolve (operandOf .zpy b h) =
      { s with ea := BitVec.ofNat 16 ((b.toNat + s.y.toNat) % 256), eaAcc := false, pc := s.pc + 1 }

/-- R48, R49, R52 (the sum modulo 2^16: D2): the index is added to the base address, and `pen_addr` is set where the high byte of the
sum differs from that of the base. -/
def Obligations.IndexedModesAddTheIndex : Prop :=
  ∀ s : State,
    let b := s.readByte s.pc
    let h := s.readByte (s.pc + 1)
    let base := h.toNat * 256 + b.toNat
    let pointed := (s.readByte (BitVec.ofNat 16 ((b.toNat + 1) % 256))).toNat * 256 +
      (s.readByte (BitVec.ofNat 16 b.toNat)).toNat
    let crosses := fun from' to' : Nat => s.penAddr || decide (to' / 256 ≠ from' / 256)
    s.resolve (operandOf .absx b h) =
      { s with
        ea := BitVec.ofNat 16 (base + s.x.toNat), eaAcc := false, pc := s.pc + 2,
        penAddr := crosses base ((base + s.x.toNat) % 65536) } ∧
    s.resolve (operandOf .absy b h) =
      { s with
        ea := BitVec.ofNat 16 (base + s.y.toNat), eaAcc := false, pc := s.pc + 2,
        penAddr := crosses base ((base + s.y.toNat) % 65536) } ∧
    s.resolve (operandOf .indy b h) =
      { s with
        ea := BitVec.ofNat 16 (pointed + s.y.toNat), eaAcc := false, pc := s.pc + 1,
        penAddr := crosses pointed ((pointed + s.y.toNat) % 65536) }

/-- R50: the second pointer byte is read from the page of the first; only the byte 0x6C has this mode. -/
def Obligations.IndirectModeStaysInThePage : Prop :=
  (∀ op : Byte, (catalogRow op).mode = .ind ↔ op = 0x6C) ∧
  ∀ s : State,
    let b := s.readByte s.pc
    let h := s.readByte (s.pc + 1)
    let second := if b = 0xFF#8 then h.toNat * 256 else h.toNat * 256 + b.toNat + 1
    s.resolve (operandOf .ind b h) =
      { s with
        ea := BitVec.ofNat 16 ((s.readByte (BitVec.ofNat 16 second)).toNat * 256 +
          (s.readByte (BitVec.ofNat 16 (h.toNat * 256 + b.toNat))).toNat),
        eaAcc := false, pc := s.pc + 2 }

/-- R51: both pointer bytes are in page zero. -/
def Obligations.IndexedIndirectModeStaysInPageZero : Prop :=
  ∀ s : State,
    let b := s.readByte s.pc
    let z := (b.toNat + s.x.toNat) % 256
    s.resolve (operandOf .indx b (s.readByte (s.pc + 1))) =
      { s with
        ea := BitVec.ofNat 16 ((s.readByte (BitVec.ofNat 16 ((z + 1) % 256))).toNat * 256 +
          (s.readByte (BitVec.ofNat 16 z)).toNat),
        eaAcc := false, pc := s.pc + 1 }

/-- R53: with the indicator clear, as a step clears it, three resolvers set `pen_addr`, each exactly where the high byte of the final
address differs from that of the base address before indexing; no other resolver sets it. -/
def Obligations.PageCrossingIndicator : Prop :=
  ∀ (s : State) (o : Operand), s.penAddr = false →
    let t := s.resolve o
    (∀ w, o = .absx w ∨ o = .absy w → (t.penAddr = true ↔ t.ea.toNat / 256 ≠ w.toNat / 256)) ∧
    (∀ b, o = .indy b → (t.penAddr = true ↔ t.ea.toNat / 256 ≠ (s.readByte (zext16 (b + 1))).toNat)) ∧
    (o.mode ∉ [Mode.absx, .absy, .indy] → t.penAddr = false)

/-! ## Arithmetic and logic -/

/-- R70 (the overflow expression and its signed-sum equivalent: general knowledge): the adder's carry is bit 8 of the wide sum; its
overflow is that of the signed sum, which is the sign-mismatch expression. -/
def Obligations.AdderCarryAndOverflow : Prop :=
  ∀ (s : State) (m : Byte),
    let sum := s.a.toNat + m.toNat + (s.flag .c).toNat
    let signedSum := s.a.toInt + m.toInt + (s.flag .c).toNat
    let t := s.addWithCarry m
    t.a.toNat = sum % 256 ∧ t.flag .c = decide (256 ≤ sum) ∧ ZeroNegativeOf t.a t ∧
      t.flag .v = decide (signedSum < -128 ∨ 127 < signedSum) ∧
      t.flag .v = decide ((t.a ^^^ s.a) &&& (t.a ^^^ m) &&& 0x80#8 ≠ 0#8) ∧
      RegsKept [.a] s t ∧ FlagsKept [.c, .z, .n, .v] s t ∧ MemoryKept s t

/-- R71: ADC in every form, whatever `P.D` holds; `V` where `A` and the operand have one sign and the result the other. -/
def Obligations.AdcAddsWithCarry : Prop :=
  ∀ (o : Operand) (op : Byte) (s : State),
    (o.mode, op) ∈ [(Mode.imm, 0x69#8), (.zp, 0x65#8), (.zpx, 0x75#8), (.abs, 0x6D#8), (.absx, 0x7D#8), (.absy, 0x79#8),
      (.indx, 0x61#8), (.indy, 0x71#8)] →
    let m := s.operandByte o
    let sum := s.a.toNat + m.toNat + (s.flag .c).toNat
    encode (.adc o) = op :: o.bytes ∧
      ∃ t, exec (.adc o) s = .next t ∧ t.a.toNat = sum % 256 ∧ t.flag .c = decide (256 ≤ sum) ∧ ZeroNegativeOf t.a t ∧
        t.flag .v = decide (s.a.msb = m.msb ∧ t.a.msb ≠ s.a.msb) ∧
        RegsKept [.a] s t ∧ FlagsKept [.c, .z, .n, .v] s t ∧ MemoryKept s t ∧ EndsAfter o op (s.beginStep.crossesPage o) s t

/-- R72: SBC in every form, whatever `P.D` holds; the carry is the inverse of the borrow; `V` where `A` and the complement of the
operand have one sign and the result the other. -/
def Obligations.SbcSubtractsWithBorrow : Prop :=
  ∀ (o : Operand) (op : Byte) (s : State),
    (o.mode, op) ∈ [(Mode.imm, 0xE9#8), (.zp, 0xE5#8), (.zpx, 0xF5#8), (.abs, 0xED#8), (.absx, 0xFD#8), (.absy, 0xF9#8),
      (.indx, 0xE1#8), (.indy, 0xF1#8)] →
    let m := s.operandByte o
    let difference : Int := s.a.toNat - m.toNat - (1 - (s.flag .c).toNat)
    encode (.sbc o) = op :: o.bytes ∧
      ∃ t, exec (.sbc o) s = .next t ∧ (t.a.toNat : Int) = difference % 256 ∧ t.flag .c = decide (0 ≤ difference) ∧
        ZeroNegativeOf t.a t ∧ t.flag .v = decide (s.a.msb ≠ m.msb ∧ t.a.msb ≠ s.a.msb) ∧
        RegsKept [.a] s t ∧ FlagsKept [.c, .z, .n, .v] s t ∧ MemoryKept s t ∧ EndsAfter o op (s.beginStep.crossesPage o) s t

/-- R74, R75, R76: AND, ORA and EOR in every form. -/
def Obligations.LogicalInstrsCombineIntoA : Prop :=
  ∀ (o : Operand) (op : Byte) (s : State),
    ((o.mode, op) ∈ [(Mode.imm, 0x29#8), (.zp, 0x25#8), (.zpx, 0x35#8), (.abs, 0x2D#8), (.absx, 0x3D#8), (.absy, 0x39#8),
        (.indx, 0x21#8), (.indy, 0x31#8)] →
      LoadsRegister (.and o) o op (s.beginStep.crossesPage o) .a (s.a &&& s.operandByte o) s) ∧
    ((o.mode, op) ∈ [(Mode.imm, 0x09#8), (.zp, 0x05#8), (.zpx, 0x15#8), (.abs, 0x0D#8), (.absx, 0x1D#8), (.absy, 0x19#8),
        (.indx, 0x01#8), (.indy, 0x11#8)] →
      LoadsRegister (.ora o) o op (s.beginStep.crossesPage o) .a (s.a ||| s.operandByte o) s) ∧
    ((o.mode, op) ∈ [(Mode.imm, 0x49#8), (.zp, 0x45#8), (.zpx, 0x55#8), (.abs, 0x4D#8), (.absx, 0x5D#8), (.absy, 0x59#8),
        (.indx, 0x41#8), (.indy, 0x51#8)] →
      LoadsRegister (.eor o) o op (s.beginStep.crossesPage o) .a (s.a ^^^ s.operandByte o) s)

/-! ## Shifts and rotates -/

/-- R77, R79 (no page-crossing cycle: D12; one write: D19): ASL and ROL in the accumulator form and the memory forms. -/
def Obligations.LeftShiftsAndRotates : Prop :=
  ∀ (o : Operand) (op : Byte) (s : State),
    let m := (s.operandByte o).toNat
    ((o.mode, op) ∈ [(Mode.acc, 0x0A#8), (.zp, 0x06#8), (.zpx, 0x16#8), (.abs, 0x0E#8), (.absx, 0x1E#8)] →
      encode (.asl o) = op :: o.bytes ∧
        ∃ t, WritesBack (.asl o) o op [.c, .z, .n] (BitVec.ofNat 8 (2 * m)) s t ∧ t.flag .c = decide (128 ≤ m)) ∧
    ((o.mode, op) ∈ [(Mode.acc, 0x2A#8), (.zp, 0x26#8), (.zpx, 0x36#8), (.abs, 0x2E#8), (.absx, 0x3E#8)] →
      encode (.rol o) = op :: o.bytes ∧
        ∃ t, WritesBack (.rol o) o op [.c, .z, .n] (BitVec.ofNat 8 (2 * m + (s.flag .c).toNat)) s t ∧
          t.flag .c = decide (128 ≤ m))

/-- R78, R80 (no page-crossing cycle: D12; one write: D19): LSR and ROR in the accumulator form and the memory forms. -/
def Obligations.RightShiftsAndRotates : Prop :=
  ∀ (o : Operand) (op : Byte) (s : State),
    let m := (s.operandByte o).toNat
    ((o.mode, op) ∈ [(Mode.acc, 0x4A#8), (.zp, 0x46#8), (.zpx, 0x56#8), (.abs, 0x4E#8), (.absx, 0x5E#8)] →
      encode (.lsr o) = op :: o.bytes ∧
        ∃ t, WritesBack (.lsr o) o op [.c, .z, .n] (BitVec.ofNat 8 (m / 2)) s t ∧ t.flag .c = decide (m % 2 = 1)) ∧
    ((o.mode, op) ∈ [(Mode.acc, 0x6A#8), (.zp, 0x66#8), (.zpx, 0x76#8), (.abs, 0x6E#8), (.absx, 0x7E#8)] →
      encode (.ror o) = op :: o.bytes ∧
        ∃ t, WritesBack (.ror o) o op [.c, .z, .n] (BitVec.ofNat 8 (m / 2 + 128 * (s.flag .c).toNat)) s t ∧
          t.flag .c = decide (m % 2 = 1))

/-! ## Increments and decrements -/

/-- R81, R82 (one write: D19; no page-crossing cycle: D12): INC and DEC in every form. -/
def Obligations.MemoryIncrementAndDecrement : Prop :=
  ∀ (o : Operand) (op : Byte) (s : State),
    let m := (s.operandByte o).toNat
    ((o.mode, op) ∈ [(Mode.zp, 0xE6#8), (.zpx, 0xF6#8), (.abs, 0xEE#8), (.absx, 0xFE#8)] →
      encode (.inc o) = op :: o.bytes ∧ ∃ t, WritesBack (.inc o) o op [.z, .n] (BitVec.ofNat 8 (m + 1)) s t) ∧
    ((o.mode, op) ∈ [(Mode.zp, 0xC6#8), (.zpx, 0xD6#8), (.abs, 0xCE#8), (.absx, 0xDE#8)] →
      encode (.dec o) = op :: o.bytes ∧ ∃ t, WritesBack (.dec o) o op [.z, .n] (BitVec.ofNat 8 (m + 255)) s t)

/-- R83, R84, R85, R86: INX, INY, DEX and DEY. -/
def Obligations.IndexIncrementAndDecrement : Prop :=
  ∀ s : State,
    LoadsRegister .inx .imp 0xE8 false .x (BitVec.ofNat 8 (s.x.toNat + 1)) s ∧
    LoadsRegister .iny .imp 0xC8 false .y (BitVec.ofNat 8 (s.y.toNat + 1)) s ∧
    LoadsRegister .dex .imp 0xCA false .x (BitVec.ofNat 8 (s.x.toNat + 255)) s ∧
    LoadsRegister .dey .imp 0x88 false .y (BitVec.ofNat 8 (s.y.toNat + 255)) s

/-! ## Compares and the bit test -/

/-- R88 (the page-crossing cycle: D11): CMP in every form. -/
def Obligations.CmpComparesA : Prop :=
  ∀ (o : Operand) (op : Byte) (s : State),
    (o.mode, op) ∈ [(Mode.imm, 0xC9#8), (.zp, 0xC5#8), (.zpx, 0xD5#8), (.abs, 0xCD#8), (.absx, 0xDD#8), (.absy, 0xD9#8),
      (.indx, 0xC1#8), (.indy, 0xD1#8)] →
    Compares (.cmp o) o op (s.beginStep.crossesPage o) s.a (s.operandByte o) s

/-- R87, R89, R90: CPX and CPY in every form. -/
def Obligations.CpxCpyCompareTheIndex : Prop :=
  ∀ (o : Operand) (op : Byte) (s : State),
    ((o.mode, op) ∈ [(Mode.imm, 0xE0#8), (.zp, 0xE4#8), (.abs, 0xEC#8)] →
      Compares (.cpx o) o op false s.x (s.operandByte o) s) ∧
    ((o.mode, op) ∈ [(Mode.imm, 0xC0#8), (.zp, 0xC4#8), (.abs, 0xCC#8)] →
      Compares (.cpy o) o op false s.y (s.operandByte o) s)

/-- R91: BIT in both forms; `N` and `V` come from the operand alone. -/
def Obligations.BitTestsTheOperand : Prop :=
  ∀ (o : Operand) (op : Byte) (s : State),
    (o.mode, op) ∈ [(Mode.zp, 0x24#8), (.abs, 0x2C#8)] →
    let m := s.operandByte o
    encode (.bit o) = op :: o.bytes ∧
      ∃ t, exec (.bit o) s = .next t ∧ t.flag .z = decide (s.a &&& m = 0) ∧ t.flag .n = decide (128 ≤ m.toNat) ∧
        t.flag .v = decide (64 ≤ m.toNat % 128) ∧ FlagsKept [.z, .n, .v] s t ∧ RegsKept [] s t ∧ MemoryKept s t ∧
        EndsAfter o op false s t

/-! ## Branches -/

/-- R92 to R100 (polarities but BCC's: general knowledge; the page compared with: D18; the wrap: D1): each branch tests one flag
against one polarity. -/
def Obligations.BranchesTestOneFlag : Prop :=
  ∀ (d : Byte) (s : State),
    Branches (.bcc d) 0x90 d (!s.flag .c) s ∧ Branches (.bcs d) 0xB0 d (s.flag .c) s ∧
    Branches (.beq d) 0xF0 d (s.flag .z) s ∧ Branches (.bne d) 0xD0 d (!s.flag .z) s ∧
    Branches (.bmi d) 0x30 d (s.flag .n) s ∧ Branches (.bpl d) 0x10 d (!s.flag .n) s ∧
    Branches (.bvc d) 0x50 d (!s.flag .v) s ∧ Branches (.bvs d) 0x70 d (s.flag .v) s

/-! ## The stack, subroutines and the software interrupt -/

/-- R101, R102 (the stack order: D4; the pushed `B`: D7): PHA and PHP push one byte at `SP` and change no register but `SP`, and no
flag. -/
def Obligations.PhaPhpPushOneByte : Prop :=
  ∀ s : State,
    (encode .pha = [0x48] ∧
      ∃ t, exec .pha s = .next t ∧ StoresByte (stackAddr s.sp) s.a s t ∧ t.sp = s.sp - 1 ∧ RegsKept [.sp] s t ∧
        t.p = s.p ∧ EndsAfter .imp 0x48 false s t) ∧
    (encode .php = [0x08] ∧
      ∃ t, exec .php s = .next t ∧ StoresByte (stackAddr s.sp) (s.p ||| 0x10#8) s t ∧ t.sp = s.sp - 1 ∧
        RegsKept [.sp] s t ∧ t.p = s.p ∧ EndsAfter .imp 0x08 false s t)

/-- R103, R104 (the stack order: D4; all bits of the pulled byte: D8): PLA and PLP pull one byte; memory is unchanged. -/
def Obligations.PlaPlpPullOneByte : Prop :=
  ∀ s : State,
    let pulled := s.readByte (stackAddr (s.sp + 1))
    (encode .pla = [0x68] ∧
      ∃ t, exec .pla s = .next t ∧ t.a = pulled ∧ t.sp = s.sp + 1 ∧ ZeroNegativeOf pulled t ∧ RegsKept [.a, .sp] s t ∧
        FlagsKept [.z, .n] s t ∧ MemoryKept s t ∧ EndsAfter .imp 0x68 false s t) ∧
    (encode .plp = [0x28] ∧
      ∃ t, exec .plp s = .next t ∧ t.p = pulled ||| 0x20#8 ∧ t.sp = s.sp + 1 ∧ RegsKept [.sp] s t ∧ MemoryKept s t ∧
        EndsAfter .imp 0x28 false s t)

/-- R105 (the stack order: D4): JSR pushes the address of its own last byte, high byte first, and jumps. -/
def Obligations.JsrPushesAndJumps : Prop :=
  ∀ (target : Addr) (s : State),
    let last := s.pc + 2
    encode (.jsr target) = [0x20, BitVec.ofNat 8 target.toNat, BitVec.ofNat 8 (target.toNat / 256)] ∧
      ∃ t, exec (.jsr target) s = .next t ∧ t.pc = target ∧ t.sp = s.sp - 2 ∧
        t.readByte (stackAddr s.sp) = BitVec.ofNat 8 (last.toNat / 256) ∧
        t.readByte (stackAddr (s.sp - 1)) = BitVec.ofNat 8 last.toNat ∧
        MemoryKeptExcept [stackAddr s.sp, stackAddr (s.sp - 1)] s t ∧ RegsKept [.sp] s t ∧ t.p = s.p ∧
        Charges (catalogRow 0x20).baseCycles s t

/-- R106 (the stack order: D4): RTS pulls a word and adds 1. -/
def Obligations.RtsPullsAndAddsOne : Prop :=
  ∀ s : State,
    encode .rts = [0x60] ∧
      ∃ t, exec .rts s = .next t ∧
        t.pc = BitVec.ofNat 16 ((s.readByte (stackAddr (s.sp + 2))).toNat * 256 +
          (s.readByte (stackAddr (s.sp + 1))).toNat + 1) ∧
        t.sp = s.sp + 2 ∧ RegsKept [.sp] s t ∧ t.p = s.p ∧ MemoryKept s t ∧ Charges (catalogRow 0x60).baseCycles s t

/-- R105, R106: "JSR to address T from address P followed by RTS returns the program counter to P+3", and the stack pointer to where
it was, whatever the target and the stack pointer. -/
def Obligations.JsrThenRtsReturnsPastTheJsr : Prop :=
  ∀ (target : Addr) (s t : State), exec (.jsr target) s = .next t →
    ∃ u, exec .rts t = .next u ∧ u.pc = s.pc + 3 ∧ RegsKept [] s u ∧ u.p = s.p

/-- R108, R135 (the stack order: D4; `B` and `D` untouched: D10; not masked by `I`: D25): BRK takes the software interrupt from
every state. -/
def Obligations.BrkTakesTheInterrupt : Prop :=
  ∀ s : State,
    let back := s.pc + 2
    encode .brk = [0x00] ∧
      ∃ t, exec .brk s = .next t ∧
        t.pc = BitVec.ofNat 16 ((s.readByte 0xFFFF#16).toNat * 256 + (s.readByte 0xFFFE#16).toNat) ∧
        t.sp = s.sp - 3 ∧ RegsKept [.sp] s t ∧ t.flag .i = true ∧ FlagsKept [.i] s t ∧
        t.readByte (stackAddr s.sp) = BitVec.ofNat 8 (back.toNat / 256) ∧
        t.readByte (stackAddr (s.sp - 1)) = BitVec.ofNat 8 back.toNat ∧
        t.readByte (stackAddr (s.sp - 2)) = s.p ||| 0x10#8 ∧
        MemoryKeptExcept [stackAddr s.sp, stackAddr (s.sp - 1), stackAddr (s.sp - 2)] s t ∧
        Charges (catalogRow 0x00).baseCycles s t

/-- R107, R136 (the stack order: D4; all bits of the pulled byte: D9): RTI pulls the status, the constant bit forced, then the
address, with no adjustment. -/
def Obligations.RtiRestoresStatusAndPC : Prop :=
  ∀ s : State,
    encode .rti = [0x40] ∧
      ∃ t, exec .rti s = .next t ∧ t.p = s.readByte (stackAddr (s.sp + 1)) ||| 0x20#8 ∧
        t.pc = BitVec.ofNat 16 ((s.readByte (stackAddr (s.sp + 3))).toNat * 256 +
          (s.readByte (stackAddr (s.sp + 2))).toNat) ∧
        t.sp = s.sp + 3 ∧ RegsKept [.sp] s t ∧ MemoryKept s t ∧ Charges (catalogRow 0x40).baseCycles s t

/-- R136 (the break bit: D7, D9): an RTI right after the entry of a BRK comes back to the BRK's address plus 2 with every register and
flag as before, but that the break and constant flags are 1. -/
def Obligations.BrkThenRtiComesBack : Prop :=
  ∀ s t : State, exec .brk s = .next t →
    ∃ u, exec .rti t = .next u ∧ u.pc = s.pc + 2 ∧ u.p = s.p ||| 0x30#8 ∧ RegsKept [] s u

/-! ## Transfers, flags and no-operations -/

/-- R109 to R114: each transfer copies one register; all but TXS set `Z` and `N`. -/
def Obligations.TransfersCopyOneRegister : Prop :=
  ∀ s : State,
    LoadsRegister .tax .imp 0xAA false .x s.a s ∧ LoadsRegister .tay .imp 0xA8 false .y s.a s ∧
    LoadsRegister .txa .imp 0x8A false .a s.x s ∧ LoadsRegister .tya .imp 0x98 false .a s.y s ∧
    LoadsRegister .tsx .imp 0xBA false .x s.sp s ∧
    (encode .txs = [0x9A] ∧
      ∃ t, exec .txs s = .next t ∧ t.sp = s.x ∧ RegsKept [.sp] s t ∧ t.p = s.p ∧ MemoryKept s t ∧
        EndsAfter .imp 0x9A false s t)

/-- R115 to R121 (which bit each mnemonic names: general knowledge): each sets or clears one flag and nothing else. -/
def Obligations.FlagInstrsWriteOneFlag : Prop :=
  ∀ s : State,
    SetsFlag .sec 0x38 .c true s ∧ SetsFlag .clc 0x18 .c false s ∧ SetsFlag .sei 0x78 .i true s ∧
    SetsFlag .cli 0x58 .i false s ∧ SetsFlag .sed 0xF8 .d true s ∧ SetsFlag .cld 0xD8 .d false s ∧
    SetsFlag .clv 0xB8 .v false s

/-- R122: NOP changes nothing but `PC` and the counters. -/
def Obligations.NopDoesNothing : Prop :=
  ∀ s : State,
    encode .nop = [0xEA] ∧
      ∃ t, exec .nop s = .next t ∧ RegsKept [] s t ∧ t.p = s.p ∧ MemoryKept s t ∧ t.penAddr = false ∧ t.penOp = false ∧
        t.pc = s.pc + 1 ∧ Charges 2 s t

/-- R63, R123 (modes and base cycles: D16; 0xEB: D15; the six bytes: general knowledge): each of the 105 undocumented bytes is a no-op
with the length and cycles of its row; six of them cost one cycle more where indexing crosses a page. -/
def Obligations.UndocumentedNopsDoNothing : Prop :=
  ∀ (op : Byte) (o : Operand) (s : State), op ∈ undocumentedBytes → o.mode = (catalogRow op).mode →
    encode (.nopUndoc op o) = op :: o.bytes ∧
      ∃ t, exec (.nopUndoc op o) s = .next t ∧ RegsKept [] s t ∧ t.p = s.p ∧ MemoryKept s t ∧
        EndsAfter o op
          (decide (op ∈ [0x1C#8, 0x3C#8, 0x5C#8, 0x7C#8, 0xDC#8, 0xFC#8]) && s.beginStep.crossesPage o) s t

/-! ## Loads, stores and jumps -/

/-- R124, R125, R126 (D13; the page-crossing cycle: D11): LDA, LDX and LDY in every form. -/
def Obligations.LoadsFillTheirRegister : Prop :=
  ∀ (o : Operand) (op : Byte) (s : State),
    ((o.mode, op) ∈ [(Mode.imm, 0xA9#8), (.zp, 0xA5#8), (.zpx, 0xB5#8), (.abs, 0xAD#8), (.absx, 0xBD#8), (.absy, 0xB9#8),
        (.indx, 0xA1#8), (.indy, 0xB1#8)] →
      LoadsRegister (.lda o) o op (s.beginStep.crossesPage o) .a (s.operandByte o) s) ∧
    ((o.mode, op) ∈ [(Mode.imm, 0xA2#8), (.zp, 0xA6#8), (.zpy, 0xB6#8), (.abs, 0xAE#8), (.absy, 0xBE#8)] →
      LoadsRegister (.ldx o) o op (s.beginStep.crossesPage o) .x (s.operandByte o) s) ∧
    ((o.mode, op) ∈ [(Mode.imm, 0xA0#8), (.zp, 0xA4#8), (.zpx, 0xB4#8), (.abs, 0xAC#8), (.absx, 0xBC#8)] →
      LoadsRegister (.ldy o) o op (s.beginStep.crossesPage o) .y (s.operandByte o) s)

/-- R127, R128, R129 (D13; fixed cycle counts: D12): STA, STX and STY in every form store one byte at the effective address. -/
def Obligations.StoresWriteTheirRegister : Prop :=
  ∀ (o : Operand) (op : Byte) (s : State),
    ((o.mode, op) ∈ [(Mode.zp, 0x85#8), (.zpx, 0x95#8), (.abs, 0x8D#8), (.absx, 0x9D#8), (.absy, 0x99#8), (.indx, 0x81#8),
        (.indy, 0x91#8)] → StoresRegister (.sta o) o op s.a s) ∧
    ((o.mode, op) ∈ [(Mode.zp, 0x86#8), (.zpy, 0x96#8), (.abs, 0x8E#8)] → StoresRegister (.stx o) o op s.x s) ∧
    ((o.mode, op) ∈ [(Mode.zp, 0x84#8), (.zpx, 0x94#8), (.abs, 0x8C#8)] → StoresRegister (.sty o) o op s.y s)

/-- R130, R50 (D14): JMP goes to its operand word, or to the word at the pointer, whose high byte is in the pointer's page. -/
def Obligations.JmpGoesToItsTarget : Prop :=
  ∀ (w : Addr) (s : State),
    let second := if w.toNat % 256 = 255 then w.toNat - 255 else w.toNat + 1
    (encode (.jmp (.abs w)) = 0x4C :: (Operand.abs w).bytes ∧
      ∃ t, exec (.jmp (.abs w)) s = .next t ∧ t.pc = w ∧ RegsKept [] s t ∧ t.p = s.p ∧ MemoryKept s t ∧
        Charges (catalogRow 0x4C).baseCycles s t) ∧
    (encode (.jmp (.ind w)) = 0x6C :: (Operand.ind w).bytes ∧
      ∃ t, exec (.jmp (.ind w)) s = .next t ∧
        t.pc = BitVec.ofNat 16 ((s.readByte (BitVec.ofNat 16 second)).toNat * 256 + (s.readByte w).toNat) ∧
        RegsKept [] s t ∧ t.p = s.p ∧ MemoryKept s t ∧ Charges (catalogRow 0x6C).baseCycles s t)

/-- R36, R149: a store is seen by the next fetch. Where STA stores over the byte at which its own step ends, the next step decodes the
stored byte as its opcode, with the two bytes after it as they were. -/
def Obligations.StoreIsSeenByTheNextFetch : Prop :=
  ∀ (o : Operand) (s t : State), exec (.sta o) s = .next t → s.beginStep.effAddr o = t.pc →
    t.fetchInstr = decodeFields s.a (s.readByte (t.pc + 1)) (s.readByte (t.pc + 2))

/-! ## Reset and the host -/

/-- R26, R144 (the other bits of `P`: D5; scratch and counters: D6): the state of a core constructed over any memory. -/
def Obligations.ConstructionResetsTheCore : Prop :=
  ∀ mem0 : Memory,
    let s := State.construct mem0
    s.pc = BitVec.ofNat 16 ((mem0.read 0xFFFD).toNat * 256 + (mem0.read 0xFFFC).toNat) ∧
      s.a = 0x00#8 ∧ s.x = 0x00#8 ∧ s.y = 0x00#8 ∧ s.sp = 0xFD#8 ∧ s.p = 0x20#8 ∧ s.mem = mem0 ∧ s.cycles = 0 ∧
      s.instret = 0 ∧ s.ea = 0x0000#16 ∧ s.eaAcc = false ∧ s.rel = 0x0000#16 ∧ s.penAddr = false ∧ s.penOp = false

/-- R146 (D1): `setProgramCounter` writes `PC` modulo 2^16 and nothing else. -/
def Obligations.SetProgramCounterWritesOnlyPC : Prop :=
  ∀ (s : State) (address : Nat),
    ∃ t, hostStep (.setProgramCounter address) s = .next t ∧ t.pc.toNat = address % 65536 ∧ { t with pc := s.pc } = s

/-- R146, R32 (U6): a host write inside the store changes that byte and nothing else of the core; outside it, it fails. -/
def Obligations.HostWriteIsBounded : Prop :=
  ∀ (s : State) (address : Nat) (v : Byte),
    (address < 65536 →
      ∃ t, hostStep (.write address v) s = .next t ∧
        (∀ b, t.mem.read b = if b = address then v else s.mem.read b) ∧ { t with mem := s.mem } = s) ∧
    (65536 ≤ address → hostStep (.write address v) s = .fault (.boundsViolation address))
end

