-- ==== Sys2Proof/Laws/Bits.lean ====
section
/-! SUPPORT. The laws of the byte-order helpers and of stack addresses. -/

namespace Sys2Proof

@[simp] theorem word_hi_lo (w : Addr) : word (hi w) (lo w) = w := by
  simp only [word, hi, lo]
  ext i h
  simp only [BitVec.getElem_append, BitVec.getElem_extractLsb']
  split
  · simp [BitVec.getLsbD_eq_getElem h]
  · next hlt =>
    have h8 : 8 + (i - 8) = i := by omega
    simp [h8, BitVec.getLsbD_eq_getElem h]

theorem word_toNat (h l : Byte) : (word h l).toNat = h.toNat * 256 + l.toNat := by
  simp only [word, BitVec.toNat_append, Nat.shiftLeft_eq]
  have hl := l.isLt
  rw [Nat.mul_comm, ← Nat.two_pow_add_eq_or_of_lt (i := 8) hl]

theorem zext16_toNat (b : Byte) : (zext16 b).toNat = b.toNat := by
  have := b.isLt
  simp only [zext16, BitVec.toNat_setWidth]
  omega

theorem hi_toNat (w : Addr) : (hi w).toNat = w.toNat / 256 := by
  have := w.isLt
  simp only [hi, BitVec.extractLsb'_toNat, Nat.shiftRight_eq_div_pow]
  omega

theorem lo_toNat (w : Addr) : (lo w).toNat = w.toNat % 256 := by
  simp [lo, BitVec.extractLsb'_toNat]

@[simp] theorem lo_word (h l : Byte) : lo (word h l) = l := by
  have := l.isLt
  apply BitVec.eq_of_toNat_eq
  rw [lo_toNat, word_toNat]
  omega

@[simp] theorem hi_word (h l : Byte) : hi (word h l) = h := by
  have := l.isLt
  apply BitVec.eq_of_toNat_eq
  rw [hi_toNat, word_toNat]
  omega

end Sys2Proof

namespace Sys2Proof.Machine

theorem stackAddr_toNat (sp : Byte) : (stackAddr sp).toNat = 256 + sp.toNat := by
  have := sp.isLt
  simp only [stackAddr, Config.stackBase, BitVec.toNat_add, zext16_toNat]
  simp
  omega

/-- Stack addresses lie in page 0x01 (R11). -/
theorem page_stackAddr (sp : Byte) : page (stackAddr sp) = 0x01#8 := by
  have := sp.isLt
  apply BitVec.eq_of_toNat_eq
  simp only [page, hi_toNat, stackAddr_toNat]
  simp
  omega

theorem stackAddr_inj {i j : Byte} : stackAddr i = stackAddr j ↔ i = j := by
  constructor
  · intro h
    have h' := congrArg BitVec.toNat h
    rw [stackAddr_toNat, stackAddr_toNat] at h'
    exact BitVec.eq_of_toNat_eq (by omega)
  · rintro rfl; rfl

end Sys2Proof.Machine
end

