-- ==== Sys2Proof/Laws/State.lean ====
section
/-! SUPPORT. One lemma per field per update of the state, all true by unfolding the update once, so that no later proof unfolds a
record update. Where an update leaves `p` or the memory alone, a lemma says so of every flag and of every byte read. -/

namespace Sys2Proof.Machine

variable (s : State)

@[simp] theorem State.setP_a (v : Byte) : (s.setP v).a = s.a := rfl
@[simp] theorem State.setP_x (v : Byte) : (s.setP v).x = s.x := rfl
@[simp] theorem State.setP_y (v : Byte) : (s.setP v).y = s.y := rfl
@[simp] theorem State.setP_sp (v : Byte) : (s.setP v).sp = s.sp := rfl
@[simp] theorem State.setP_p (v : Byte) : (s.setP v).p = v ||| Flag.u.mask := rfl
@[simp] theorem State.setP_pc (v : Byte) : (s.setP v).pc = s.pc := rfl
@[simp] theorem State.setP_ea (v : Byte) : (s.setP v).ea = s.ea := rfl
@[simp] theorem State.setP_eaAcc (v : Byte) : (s.setP v).eaAcc = s.eaAcc := rfl
@[simp] theorem State.setP_rel (v : Byte) : (s.setP v).rel = s.rel := rfl
@[simp] theorem State.setP_penAddr (v : Byte) : (s.setP v).penAddr = s.penAddr := rfl
@[simp] theorem State.setP_penOp (v : Byte) : (s.setP v).penOp = s.penOp := rfl
@[simp] theorem State.setP_cycles (v : Byte) : (s.setP v).cycles = s.cycles := rfl
@[simp] theorem State.setP_instret (v : Byte) : (s.setP v).instret = s.instret := rfl
@[simp] theorem State.setP_mem (v : Byte) : (s.setP v).mem = s.mem := rfl
@[simp] theorem State.setP_readByte (v : Byte) (b : Addr) : (s.setP v).readByte b = s.readByte b := rfl

@[simp] theorem State.setFlag_a (f : Flag) (cond : Bool) : (s.setFlag f cond).a = s.a := rfl
@[simp] theorem State.setFlag_x (f : Flag) (cond : Bool) : (s.setFlag f cond).x = s.x := rfl
@[simp] theorem State.setFlag_y (f : Flag) (cond : Bool) : (s.setFlag f cond).y = s.y := rfl
@[simp] theorem State.setFlag_sp (f : Flag) (cond : Bool) : (s.setFlag f cond).sp = s.sp := rfl
@[simp] theorem State.setFlag_p (f : Flag) (cond : Bool) :
    (s.setFlag f cond).p = (if cond then s.p ||| f.mask else s.p &&& ~~~f.mask) ||| Flag.u.mask := rfl
@[simp] theorem State.setFlag_pc (f : Flag) (cond : Bool) : (s.setFlag f cond).pc = s.pc := rfl
@[simp] theorem State.setFlag_ea (f : Flag) (cond : Bool) : (s.setFlag f cond).ea = s.ea := rfl
@[simp] theorem State.setFlag_eaAcc (f : Flag) (cond : Bool) : (s.setFlag f cond).eaAcc = s.eaAcc := rfl
@[simp] theorem State.setFlag_rel (f : Flag) (cond : Bool) : (s.setFlag f cond).rel = s.rel := rfl
@[simp] theorem State.setFlag_penAddr (f : Flag) (cond : Bool) : (s.setFlag f cond).penAddr = s.penAddr := rfl
@[simp] theorem State.setFlag_penOp (f : Flag) (cond : Bool) : (s.setFlag f cond).penOp = s.penOp := rfl
@[simp] theorem State.setFlag_cycles (f : Flag) (cond : Bool) : (s.setFlag f cond).cycles = s.cycles := rfl
@[simp] theorem State.setFlag_instret (f : Flag) (cond : Bool) : (s.setFlag f cond).instret = s.instret := rfl
@[simp] theorem State.setFlag_mem (f : Flag) (cond : Bool) : (s.setFlag f cond).mem = s.mem := rfl
@[simp] theorem State.setFlag_readByte (f : Flag) (cond : Bool) (b : Addr) : (s.setFlag f cond).readByte b = s.readByte b := rfl

@[simp] theorem State.setZN_a (v : Byte) : (s.setZN v).a = s.a := rfl
@[simp] theorem State.setZN_x (v : Byte) : (s.setZN v).x = s.x := rfl
@[simp] theorem State.setZN_y (v : Byte) : (s.setZN v).y = s.y := rfl
@[simp] theorem State.setZN_sp (v : Byte) : (s.setZN v).sp = s.sp := rfl
@[simp] theorem State.setZN_pc (v : Byte) : (s.setZN v).pc = s.pc := rfl
@[simp] theorem State.setZN_ea (v : Byte) : (s.setZN v).ea = s.ea := rfl
@[simp] theorem State.setZN_eaAcc (v : Byte) : (s.setZN v).eaAcc = s.eaAcc := rfl
@[simp] theorem State.setZN_rel (v : Byte) : (s.setZN v).rel = s.rel := rfl
@[simp] theorem State.setZN_penAddr (v : Byte) : (s.setZN v).penAddr = s.penAddr := rfl
@[simp] theorem State.setZN_penOp (v : Byte) : (s.setZN v).penOp = s.penOp := rfl
@[simp] theorem State.setZN_cycles (v : Byte) : (s.setZN v).cycles = s.cycles := rfl
@[simp] theorem State.setZN_instret (v : Byte) : (s.setZN v).instret = s.instret := rfl
@[simp] theorem State.setZN_mem (v : Byte) : (s.setZN v).mem = s.mem := rfl
@[simp] theorem State.setZN_readByte (v : Byte) (b : Addr) : (s.setZN v).readByte b = s.readByte b := rfl

@[simp] theorem State.addWithCarry_a (m : Byte) : (s.addWithCarry m).a = BitVec.ofNat 8 (s.wideSum m) := rfl
@[simp] theorem State.addWithCarry_x (m : Byte) : (s.addWithCarry m).x = s.x := rfl
@[simp] theorem State.addWithCarry_y (m : Byte) : (s.addWithCarry m).y = s.y := rfl
@[simp] theorem State.addWithCarry_sp (m : Byte) : (s.addWithCarry m).sp = s.sp := rfl
@[simp] theorem State.addWithCarry_pc (m : Byte) : (s.addWithCarry m).pc = s.pc := rfl
@[simp] theorem State.addWithCarry_ea (m : Byte) : (s.addWithCarry m).ea = s.ea := rfl
@[simp] theorem State.addWithCarry_eaAcc (m : Byte) : (s.addWithCarry m).eaAcc = s.eaAcc := rfl
@[simp] theorem State.addWithCarry_rel (m : Byte) : (s.addWithCarry m).rel = s.rel := rfl
@[simp] theorem State.addWithCarry_penAddr (m : Byte) : (s.addWithCarry m).penAddr = s.penAddr := rfl
@[simp] theorem State.addWithCarry_penOp (m : Byte) : (s.addWithCarry m).penOp = s.penOp := rfl
@[simp] theorem State.addWithCarry_cycles (m : Byte) : (s.addWithCarry m).cycles = s.cycles := rfl
@[simp] theorem State.addWithCarry_instret (m : Byte) : (s.addWithCarry m).instret = s.instret := rfl
@[simp] theorem State.addWithCarry_mem (m : Byte) : (s.addWithCarry m).mem = s.mem := rfl
@[simp] theorem State.addWithCarry_readByte (m : Byte) (b : Addr) : (s.addWithCarry m).readByte b = s.readByte b := rfl

@[simp] theorem State.compare_a (r m : Byte) : (s.compare r m).a = s.a := rfl
@[simp] theorem State.compare_x (r m : Byte) : (s.compare r m).x = s.x := rfl
@[simp] theorem State.compare_y (r m : Byte) : (s.compare r m).y = s.y := rfl
@[simp] theorem State.compare_sp (r m : Byte) : (s.compare r m).sp = s.sp := rfl
@[simp] theorem State.compare_pc (r m : Byte) : (s.compare r m).pc = s.pc := rfl
@[simp] theorem State.compare_ea (r m : Byte) : (s.compare r m).ea = s.ea := rfl
@[simp] theorem State.compare_eaAcc (r m : Byte) : (s.compare r m).eaAcc = s.eaAcc := rfl
@[simp] theorem State.compare_rel (r m : Byte) : (s.compare r m).rel = s.rel := rfl
@[simp] theorem State.compare_penAddr (r m : Byte) : (s.compare r m).penAddr = s.penAddr := rfl
@[simp] theorem State.compare_penOp (r m : Byte) : (s.compare r m).penOp = s.penOp := rfl
@[simp] theorem State.compare_cycles (r m : Byte) : (s.compare r m).cycles = s.cycles := rfl
@[simp] theorem State.compare_instret (r m : Byte) : (s.compare r m).instret = s.instret := rfl
@[simp] theorem State.compare_mem (r m : Byte) : (s.compare r m).mem = s.mem := rfl
@[simp] theorem State.compare_readByte (r m : Byte) (b : Addr) : (s.compare r m).readByte b = s.readByte b := rfl

@[simp] theorem State.bitTest_a (m : Byte) : (s.bitTest m).a = s.a := rfl
@[simp] theorem State.bitTest_x (m : Byte) : (s.bitTest m).x = s.x := rfl
@[simp] theorem State.bitTest_y (m : Byte) : (s.bitTest m).y = s.y := rfl
@[simp] theorem State.bitTest_sp (m : Byte) : (s.bitTest m).sp = s.sp := rfl
@[simp] theorem State.bitTest_pc (m : Byte) : (s.bitTest m).pc = s.pc := rfl
@[simp] theorem State.bitTest_ea (m : Byte) : (s.bitTest m).ea = s.ea := rfl
@[simp] theorem State.bitTest_eaAcc (m : Byte) : (s.bitTest m).eaAcc = s.eaAcc := rfl
@[simp] theorem State.bitTest_rel (m : Byte) : (s.bitTest m).rel = s.rel := rfl
@[simp] theorem State.bitTest_penAddr (m : Byte) : (s.bitTest m).penAddr = s.penAddr := rfl
@[simp] theorem State.bitTest_penOp (m : Byte) : (s.bitTest m).penOp = s.penOp := rfl
@[simp] theorem State.bitTest_cycles (m : Byte) : (s.bitTest m).cycles = s.cycles := rfl
@[simp] theorem State.bitTest_instret (m : Byte) : (s.bitTest m).instret = s.instret := rfl
@[simp] theorem State.bitTest_mem (m : Byte) : (s.bitTest m).mem = s.mem := rfl
@[simp] theorem State.bitTest_readByte (m : Byte) (b : Addr) : (s.bitTest m).readByte b = s.readByte b := rfl

@[simp] theorem State.setShiftFlags_a (out : Bool) (v : Byte) : (s.setShiftFlags out v).a = s.a := rfl
@[simp] theorem State.setShiftFlags_x (out : Bool) (v : Byte) : (s.setShiftFlags out v).x = s.x := rfl
@[simp] theorem State.setShiftFlags_y (out : Bool) (v : Byte) : (s.setShiftFlags out v).y = s.y := rfl
@[simp] theorem State.setShiftFlags_sp (out : Bool) (v : Byte) : (s.setShiftFlags out v).sp = s.sp := rfl
@[simp] theorem State.setShiftFlags_pc (out : Bool) (v : Byte) : (s.setShiftFlags out v).pc = s.pc := rfl
@[simp] theorem State.setShiftFlags_ea (out : Bool) (v : Byte) : (s.setShiftFlags out v).ea = s.ea := rfl
@[simp] theorem State.setShiftFlags_eaAcc (out : Bool) (v : Byte) : (s.setShiftFlags out v).eaAcc = s.eaAcc := rfl
@[simp] theorem State.setShiftFlags_rel (out : Bool) (v : Byte) : (s.setShiftFlags out v).rel = s.rel := rfl
@[simp] theorem State.setShiftFlags_penAddr (out : Bool) (v : Byte) : (s.setShiftFlags out v).penAddr = s.penAddr := rfl
@[simp] theorem State.setShiftFlags_penOp (out : Bool) (v : Byte) : (s.setShiftFlags out v).penOp = s.penOp := rfl
@[simp] theorem State.setShiftFlags_cycles (out : Bool) (v : Byte) : (s.setShiftFlags out v).cycles = s.cycles := rfl
@[simp] theorem State.setShiftFlags_instret (out : Bool) (v : Byte) : (s.setShiftFlags out v).instret = s.instret := rfl
@[simp] theorem State.setShiftFlags_mem (out : Bool) (v : Byte) : (s.setShiftFlags out v).mem = s.mem := rfl
@[simp] theorem State.setShiftFlags_readByte (out : Bool) (v : Byte) (b : Addr) :
    (s.setShiftFlags out v).readByte b = s.readByte b := rfl

@[simp] theorem State.writeByte_a (addr : Addr) (v : Byte) : (s.writeByte addr v).a = s.a := rfl
@[simp] theorem State.writeByte_x (addr : Addr) (v : Byte) : (s.writeByte addr v).x = s.x := rfl
@[simp] theorem State.writeByte_y (addr : Addr) (v : Byte) : (s.writeByte addr v).y = s.y := rfl
@[simp] theorem State.writeByte_sp (addr : Addr) (v : Byte) : (s.writeByte addr v).sp = s.sp := rfl
@[simp] theorem State.writeByte_p (addr : Addr) (v : Byte) : (s.writeByte addr v).p = s.p := rfl
@[simp] theorem State.writeByte_pc (addr : Addr) (v : Byte) : (s.writeByte addr v).pc = s.pc := rfl
@[simp] theorem State.writeByte_ea (addr : Addr) (v : Byte) : (s.writeByte addr v).ea = s.ea := rfl
@[simp] theorem State.writeByte_eaAcc (addr : Addr) (v : Byte) : (s.writeByte addr v).eaAcc = s.eaAcc := rfl
@[simp] theorem State.writeByte_rel (addr : Addr) (v : Byte) : (s.writeByte addr v).rel = s.rel := rfl
@[simp] theorem State.writeByte_penAddr (addr : Addr) (v : Byte) : (s.writeByte addr v).penAddr = s.penAddr := rfl
@[simp] theorem State.writeByte_penOp (addr : Addr) (v : Byte) : (s.writeByte addr v).penOp = s.penOp := rfl
@[simp] theorem State.writeByte_cycles (addr : Addr) (v : Byte) : (s.writeByte addr v).cycles = s.cycles := rfl
@[simp] theorem State.writeByte_instret (addr : Addr) (v : Byte) : (s.writeByte addr v).instret = s.instret := rfl
@[simp] theorem State.writeByte_mem (addr : Addr) (v : Byte) : (s.writeByte addr v).mem = s.mem.write addr.toNat v := rfl
@[simp] theorem State.writeByte_flag (addr : Addr) (v : Byte) (g : Flag) : (s.writeByte addr v).flag g = s.flag g := rfl

@[simp] theorem State.setA_a (v : Byte) : (s.setA v).a = v := rfl
@[simp] theorem State.setA_x (v : Byte) : (s.setA v).x = s.x := rfl
@[simp] theorem State.setA_y (v : Byte) : (s.setA v).y = s.y := rfl
@[simp] theorem State.setA_sp (v : Byte) : (s.setA v).sp = s.sp := rfl
@[simp] theorem State.setA_p (v : Byte) : (s.setA v).p = s.p := rfl
@[simp] theorem State.setA_pc (v : Byte) : (s.setA v).pc = s.pc := rfl
@[simp] theorem State.setA_ea (v : Byte) : (s.setA v).ea = s.ea := rfl
@[simp] theorem State.setA_eaAcc (v : Byte) : (s.setA v).eaAcc = s.eaAcc := rfl
@[simp] theorem State.setA_rel (v : Byte) : (s.setA v).rel = s.rel := rfl
@[simp] theorem State.setA_penAddr (v : Byte) : (s.setA v).penAddr = s.penAddr := rfl
@[simp] theorem State.setA_penOp (v : Byte) : (s.setA v).penOp = s.penOp := rfl
@[simp] theorem State.setA_cycles (v : Byte) : (s.setA v).cycles = s.cycles := rfl
@[simp] theorem State.setA_instret (v : Byte) : (s.setA v).instret = s.instret := rfl
@[simp] theorem State.setA_mem (v : Byte) : (s.setA v).mem = s.mem := rfl
@[simp] theorem State.setA_flag (v : Byte) (g : Flag) : (s.setA v).flag g = s.flag g := rfl
@[simp] theorem State.setA_readByte (v : Byte) (b : Addr) : (s.setA v).readByte b = s.readByte b := rfl

@[simp] theorem State.setX_a (v : Byte) : (s.setX v).a = s.a := rfl
@[simp] theorem State.setX_x (v : Byte) : (s.setX v).x = v := rfl
@[simp] theorem State.setX_y (v : Byte) : (s.setX v).y = s.y := rfl
@[simp] theorem State.setX_sp (v : Byte) : (s.setX v).sp = s.sp := rfl
@[simp] theorem State.setX_p (v : Byte) : (s.setX v).p = s.p := rfl
@[simp] theorem State.setX_pc (v : Byte) : (s.setX v).pc = s.pc := rfl
@[simp] theorem State.setX_ea (v : Byte) : (s.setX v).ea = s.ea := rfl
@[simp] theorem State.setX_eaAcc (v : Byte) : (s.setX v).eaAcc = s.eaAcc := rfl
@[simp] theorem State.setX_rel (v : Byte) : (s.setX v).rel = s.rel := rfl
@[simp] theorem State.setX_penAddr (v : Byte) : (s.setX v).penAddr = s.penAddr := rfl
@[simp] theorem State.setX_penOp (v : Byte) : (s.setX v).penOp = s.penOp := rfl
@[simp] theorem State.setX_cycles (v : Byte) : (s.setX v).cycles = s.cycles := rfl
@[simp] theorem State.setX_instret (v : Byte) : (s.setX v).instret = s.instret := rfl
@[simp] theorem State.setX_mem (v : Byte) : (s.setX v).mem = s.mem := rfl
@[simp] theorem State.setX_flag (v : Byte) (g : Flag) : (s.setX v).flag g = s.flag g := rfl
@[simp] theorem State.setX_readByte (v : Byte) (b : Addr) : (s.setX v).readByte b = s.readByte b := rfl

@[simp] theorem State.setY_a (v : Byte) : (s.setY v).a = s.a := rfl
@[simp] theorem State.setY_x (v : Byte) : (s.setY v).x = s.x := rfl
@[simp] theorem State.setY_y (v : Byte) : (s.setY v).y = v := rfl
@[simp] theorem State.setY_sp (v : Byte) : (s.setY v).sp = s.sp := rfl
@[simp] theorem State.setY_p (v : Byte) : (s.setY v).p = s.p := rfl
@[simp] theorem State.setY_pc (v : Byte) : (s.setY v).pc = s.pc := rfl
@[simp] theorem State.setY_ea (v : Byte) : (s.setY v).ea = s.ea := rfl
@[simp] theorem State.setY_eaAcc (v : Byte) : (s.setY v).eaAcc = s.eaAcc := rfl
@[simp] theorem State.setY_rel (v : Byte) : (s.setY v).rel = s.rel := rfl
@[simp] theorem State.setY_penAddr (v : Byte) : (s.setY v).penAddr = s.penAddr := rfl
@[simp] theorem State.setY_penOp (v : Byte) : (s.setY v).penOp = s.penOp := rfl
@[simp] theorem State.setY_cycles (v : Byte) : (s.setY v).cycles = s.cycles := rfl
@[simp] theorem State.setY_instret (v : Byte) : (s.setY v).instret = s.instret := rfl
@[simp] theorem State.setY_mem (v : Byte) : (s.setY v).mem = s.mem := rfl
@[simp] theorem State.setY_flag (v : Byte) (g : Flag) : (s.setY v).flag g = s.flag g := rfl
@[simp] theorem State.setY_readByte (v : Byte) (b : Addr) : (s.setY v).readByte b = s.readByte b := rfl

@[simp] theorem State.setSP_a (v : Byte) : (s.setSP v).a = s.a := rfl
@[simp] theorem State.setSP_x (v : Byte) : (s.setSP v).x = s.x := rfl
@[simp] theorem State.setSP_y (v : Byte) : (s.setSP v).y = s.y := rfl
@[simp] theorem State.setSP_sp (v : Byte) : (s.setSP v).sp = v := rfl
@[simp] theorem State.setSP_p (v : Byte) : (s.setSP v).p = s.p := rfl
@[simp] theorem State.setSP_pc (v : Byte) : (s.setSP v).pc = s.pc := rfl
@[simp] theorem State.setSP_ea (v : Byte) : (s.setSP v).ea = s.ea := rfl
@[simp] theorem State.setSP_eaAcc (v : Byte) : (s.setSP v).eaAcc = s.eaAcc := rfl
@[simp] theorem State.setSP_rel (v : Byte) : (s.setSP v).rel = s.rel := rfl
@[simp] theorem State.setSP_penAddr (v : Byte) : (s.setSP v).penAddr = s.penAddr := rfl
@[simp] theorem State.setSP_penOp (v : Byte) : (s.setSP v).penOp = s.penOp := rfl
@[simp] theorem State.setSP_cycles (v : Byte) : (s.setSP v).cycles = s.cycles := rfl
@[simp] theorem State.setSP_instret (v : Byte) : (s.setSP v).instret = s.instret := rfl
@[simp] theorem State.setSP_mem (v : Byte) : (s.setSP v).mem = s.mem := rfl
@[simp] theorem State.setSP_flag (v : Byte) (g : Flag) : (s.setSP v).flag g = s.flag g := rfl
@[simp] theorem State.setSP_readByte (v : Byte) (b : Addr) : (s.setSP v).readByte b = s.readByte b := rfl

@[simp] theorem State.setPC_a (v : Addr) : (s.setPC v).a = s.a := rfl
@[simp] theorem State.setPC_x (v : Addr) : (s.setPC v).x = s.x := rfl
@[simp] theorem State.setPC_y (v : Addr) : (s.setPC v).y = s.y := rfl
@[simp] theorem State.setPC_sp (v : Addr) : (s.setPC v).sp = s.sp := rfl
@[simp] theorem State.setPC_p (v : Addr) : (s.setPC v).p = s.p := rfl
@[simp] theorem State.setPC_pc (v : Addr) : (s.setPC v).pc = v := rfl
@[simp] theorem State.setPC_ea (v : Addr) : (s.setPC v).ea = s.ea := rfl
@[simp] theorem State.setPC_eaAcc (v : Addr) : (s.setPC v).eaAcc = s.eaAcc := rfl
@[simp] theorem State.setPC_rel (v : Addr) : (s.setPC v).rel = s.rel := rfl
@[simp] theorem State.setPC_penAddr (v : Addr) : (s.setPC v).penAddr = s.penAddr := rfl
@[simp] theorem State.setPC_penOp (v : Addr) : (s.setPC v).penOp = s.penOp := rfl
@[simp] theorem State.setPC_cycles (v : Addr) : (s.setPC v).cycles = s.cycles := rfl
@[simp] theorem State.setPC_instret (v : Addr) : (s.setPC v).instret = s.instret := rfl
@[simp] theorem State.setPC_mem (v : Addr) : (s.setPC v).mem = s.mem := rfl
@[simp] theorem State.setPC_flag (v : Addr) (g : Flag) : (s.setPC v).flag g = s.flag g := rfl
@[simp] theorem State.setPC_readByte (v : Addr) (b : Addr) : (s.setPC v).readByte b = s.readByte b := rfl

@[simp] theorem State.advancePC_a (n : Nat) : (s.advancePC n).a = s.a := rfl
@[simp] theorem State.advancePC_x (n : Nat) : (s.advancePC n).x = s.x := rfl
@[simp] theorem State.advancePC_y (n : Nat) : (s.advancePC n).y = s.y := rfl
@[simp] theorem State.advancePC_sp (n : Nat) : (s.advancePC n).sp = s.sp := rfl
@[simp] theorem State.advancePC_p (n : Nat) : (s.advancePC n).p = s.p := rfl
@[simp] theorem State.advancePC_pc (n : Nat) : (s.advancePC n).pc = s.pc + BitVec.ofNat 16 n := rfl
@[simp] theorem State.advancePC_ea (n : Nat) : (s.advancePC n).ea = s.ea := rfl
@[simp] theorem State.advancePC_eaAcc (n : Nat) : (s.advancePC n).eaAcc = s.eaAcc := rfl
@[simp] theorem State.advancePC_rel (n : Nat) : (s.advancePC n).rel = s.rel := rfl
@[simp] theorem State.advancePC_penAddr (n : Nat) : (s.advancePC n).penAddr = s.penAddr := rfl
@[simp] theorem State.advancePC_penOp (n : Nat) : (s.advancePC n).penOp = s.penOp := rfl
@[simp] theorem State.advancePC_cycles (n : Nat) : (s.advancePC n).cycles = s.cycles := rfl
@[simp] theorem State.advancePC_instret (n : Nat) : (s.advancePC n).instret = s.instret := rfl
@[simp] theorem State.advancePC_mem (n : Nat) : (s.advancePC n).mem = s.mem := rfl
@[simp] theorem State.advancePC_flag (n : Nat) (g : Flag) : (s.advancePC n).flag g = s.flag g := rfl
@[simp] theorem State.advancePC_readByte (n : Nat) (b : Addr) : (s.advancePC n).readByte b = s.readByte b := rfl

@[simp] theorem State.setEA_a (v : Addr) : (s.setEA v).a = s.a := rfl
@[simp] theorem State.setEA_x (v : Addr) : (s.setEA v).x = s.x := rfl
@[simp] theorem State.setEA_y (v : Addr) : (s.setEA v).y = s.y := rfl
@[simp] theorem State.setEA_sp (v : Addr) : (s.setEA v).sp = s.sp := rfl
@[simp] theorem State.setEA_p (v : Addr) : (s.setEA v).p = s.p := rfl
@[simp] theorem State.setEA_pc (v : Addr) : (s.setEA v).pc = s.pc := rfl
@[simp] theorem State.setEA_ea (v : Addr) : (s.setEA v).ea = v := rfl
@[simp] theorem State.setEA_eaAcc (v : Addr) : (s.setEA v).eaAcc = false := rfl
@[simp] theorem State.setEA_rel (v : Addr) : (s.setEA v).rel = s.rel := rfl
@[simp] theorem State.setEA_penAddr (v : Addr) : (s.setEA v).penAddr = s.penAddr := rfl
@[simp] theorem State.setEA_penOp (v : Addr) : (s.setEA v).penOp = s.penOp := rfl
@[simp] theorem State.setEA_cycles (v : Addr) : (s.setEA v).cycles = s.cycles := rfl
@[simp] theorem State.setEA_instret (v : Addr) : (s.setEA v).instret = s.instret := rfl
@[simp] theorem State.setEA_mem (v : Addr) : (s.setEA v).mem = s.mem := rfl
@[simp] theorem State.setEA_flag (v : Addr) (g : Flag) : (s.setEA v).flag g = s.flag g := rfl
@[simp] theorem State.setEA_readByte (v : Addr) (b : Addr) : (s.setEA v).readByte b = s.readByte b := rfl

@[simp] theorem State.markCrossing_a (crossed : Bool) : (s.markCrossing crossed).a = s.a := rfl
@[simp] theorem State.markCrossing_x (crossed : Bool) : (s.markCrossing crossed).x = s.x := rfl
@[simp] theorem State.markCrossing_y (crossed : Bool) : (s.markCrossing crossed).y = s.y := rfl
@[simp] theorem State.markCrossing_sp (crossed : Bool) : (s.markCrossing crossed).sp = s.sp := rfl
@[simp] theorem State.markCrossing_p (crossed : Bool) : (s.markCrossing crossed).p = s.p := rfl
@[simp] theorem State.markCrossing_pc (crossed : Bool) : (s.markCrossing crossed).pc = s.pc := rfl
@[simp] theorem State.markCrossing_ea (crossed : Bool) : (s.markCrossing crossed).ea = s.ea := rfl
@[simp] theorem State.markCrossing_eaAcc (crossed : Bool) : (s.markCrossing crossed).eaAcc = s.eaAcc := rfl
@[simp] theorem State.markCrossing_rel (crossed : Bool) : (s.markCrossing crossed).rel = s.rel := rfl
@[simp] theorem State.markCrossing_penAddr (crossed : Bool) : (s.markCrossing crossed).penAddr = (s.penAddr || crossed) := rfl
@[simp] theorem State.markCrossing_penOp (crossed : Bool) : (s.markCrossing crossed).penOp = s.penOp := rfl
@[simp] theorem State.markCrossing_cycles (crossed : Bool) : (s.markCrossing crossed).cycles = s.cycles := rfl
@[simp] theorem State.markCrossing_instret (crossed : Bool) : (s.markCrossing crossed).instret = s.instret := rfl
@[simp] theorem State.markCrossing_mem (crossed : Bool) : (s.markCrossing crossed).mem = s.mem := rfl
@[simp] theorem State.markCrossing_flag (crossed : Bool) (g : Flag) : (s.markCrossing crossed).flag g = s.flag g := rfl
@[simp] theorem State.markCrossing_readByte (crossed : Bool) (b : Addr) :
    (s.markCrossing crossed).readByte b = s.readByte b := rfl

@[simp] theorem State.setPenOp_a : s.setPenOp.a = s.a := rfl
@[simp] theorem State.setPenOp_x : s.setPenOp.x = s.x := rfl
@[simp] theorem State.setPenOp_y : s.setPenOp.y = s.y := rfl
@[simp] theorem State.setPenOp_sp : s.setPenOp.sp = s.sp := rfl
@[simp] theorem State.setPenOp_p : s.setPenOp.p = s.p := rfl
@[simp] theorem State.setPenOp_pc : s.setPenOp.pc = s.pc := rfl
@[simp] theorem State.setPenOp_ea : s.setPenOp.ea = s.ea := rfl
@[simp] theorem State.setPenOp_eaAcc : s.setPenOp.eaAcc = s.eaAcc := rfl
@[simp] theorem State.setPenOp_rel : s.setPenOp.rel = s.rel := rfl
@[simp] theorem State.setPenOp_penAddr : s.setPenOp.penAddr = s.penAddr := rfl
@[simp] theorem State.setPenOp_penOp : s.setPenOp.penOp = true := rfl
@[simp] theorem State.setPenOp_cycles : s.setPenOp.cycles = s.cycles := rfl
@[simp] theorem State.setPenOp_instret : s.setPenOp.instret = s.instret := rfl
@[simp] theorem State.setPenOp_mem : s.setPenOp.mem = s.mem := rfl
@[simp] theorem State.setPenOp_flag (g : Flag) : s.setPenOp.flag g = s.flag g := rfl
@[simp] theorem State.setPenOp_readByte (b : Addr) : s.setPenOp.readByte b = s.readByte b := rfl

@[simp] theorem State.addCycles_a (n : Nat) : (s.addCycles n).a = s.a := rfl
@[simp] theorem State.addCycles_x (n : Nat) : (s.addCycles n).x = s.x := rfl
@[simp] theorem State.addCycles_y (n : Nat) : (s.addCycles n).y = s.y := rfl
@[simp] theorem State.addCycles_sp (n : Nat) : (s.addCycles n).sp = s.sp := rfl
@[simp] theorem State.addCycles_p (n : Nat) : (s.addCycles n).p = s.p := rfl
@[simp] theorem State.addCycles_pc (n : Nat) : (s.addCycles n).pc = s.pc := rfl
@[simp] theorem State.addCycles_ea (n : Nat) : (s.addCycles n).ea = s.ea := rfl
@[simp] theorem State.addCycles_eaAcc (n : Nat) : (s.addCycles n).eaAcc = s.eaAcc := rfl
@[simp] theorem State.addCycles_rel (n : Nat) : (s.addCycles n).rel = s.rel := rfl
@[simp] theorem State.addCycles_penAddr (n : Nat) : (s.addCycles n).penAddr = s.penAddr := rfl
@[simp] theorem State.addCycles_penOp (n : Nat) : (s.addCycles n).penOp = s.penOp := rfl
@[simp] theorem State.addCycles_cycles (n : Nat) : (s.addCycles n).cycles = s.cycles + n := rfl
@[simp] theorem State.addCycles_instret (n : Nat) : (s.addCycles n).instret = s.instret := rfl
@[simp] theorem State.addCycles_mem (n : Nat) : (s.addCycles n).mem = s.mem := rfl
@[simp] theorem State.addCycles_flag (n : Nat) (g : Flag) : (s.addCycles n).flag g = s.flag g := rfl
@[simp] theorem State.addCycles_readByte (n : Nat) (b : Addr) : (s.addCycles n).readByte b = s.readByte b := rfl

@[simp] theorem State.beginStep_a : s.beginStep.a = s.a := rfl
@[simp] theorem State.beginStep_x : s.beginStep.x = s.x := rfl
@[simp] theorem State.beginStep_y : s.beginStep.y = s.y := rfl
@[simp] theorem State.beginStep_sp : s.beginStep.sp = s.sp := rfl
@[simp] theorem State.beginStep_p : s.beginStep.p = s.p := rfl
@[simp] theorem State.beginStep_pc : s.beginStep.pc = s.pc + 1 := rfl
@[simp] theorem State.beginStep_ea : s.beginStep.ea = s.ea := rfl
@[simp] theorem State.beginStep_eaAcc : s.beginStep.eaAcc = s.eaAcc := rfl
@[simp] theorem State.beginStep_rel : s.beginStep.rel = s.rel := rfl
@[simp] theorem State.beginStep_penAddr : s.beginStep.penAddr = false := rfl
@[simp] theorem State.beginStep_penOp : s.beginStep.penOp = false := rfl
@[simp] theorem State.beginStep_cycles : s.beginStep.cycles = s.cycles := rfl
@[simp] theorem State.beginStep_instret : s.beginStep.instret = s.instret := rfl
@[simp] theorem State.beginStep_mem : s.beginStep.mem = s.mem := rfl
@[simp] theorem State.beginStep_flag (g : Flag) : s.beginStep.flag g = s.flag g := rfl
@[simp] theorem State.beginStep_readByte (b : Addr) : s.beginStep.readByte b = s.readByte b := rfl

@[simp] theorem State.account_a (n : Nat) : (s.account n).a = s.a := rfl
@[simp] theorem State.account_x (n : Nat) : (s.account n).x = s.x := rfl
@[simp] theorem State.account_y (n : Nat) : (s.account n).y = s.y := rfl
@[simp] theorem State.account_sp (n : Nat) : (s.account n).sp = s.sp := rfl
@[simp] theorem State.account_p (n : Nat) : (s.account n).p = s.p := rfl
@[simp] theorem State.account_pc (n : Nat) : (s.account n).pc = s.pc := rfl
@[simp] theorem State.account_ea (n : Nat) : (s.account n).ea = s.ea := rfl
@[simp] theorem State.account_eaAcc (n : Nat) : (s.account n).eaAcc = s.eaAcc := rfl
@[simp] theorem State.account_rel (n : Nat) : (s.account n).rel = s.rel := rfl
@[simp] theorem State.account_penAddr (n : Nat) : (s.account n).penAddr = s.penAddr := rfl
@[simp] theorem State.account_penOp (n : Nat) : (s.account n).penOp = s.penOp := rfl
@[simp] theorem State.account_cycles (n : Nat) : (s.account n).cycles = s.cycles + n + (s.penAddr && s.penOp).toNat := rfl
@[simp] theorem State.account_instret (n : Nat) : (s.account n).instret = s.instret + 1 := rfl
@[simp] theorem State.account_mem (n : Nat) : (s.account n).mem = s.mem := rfl
@[simp] theorem State.account_flag (n : Nat) (g : Flag) : (s.account n).flag g = s.flag g := rfl
@[simp] theorem State.account_readByte (n : Nat) (b : Addr) : (s.account n).readByte b = s.readByte b := rfl

@[simp] theorem State.push8_a (v : Byte) : (s.push8 v).a = s.a := rfl
@[simp] theorem State.push8_x (v : Byte) : (s.push8 v).x = s.x := rfl
@[simp] theorem State.push8_y (v : Byte) : (s.push8 v).y = s.y := rfl
@[simp] theorem State.push8_sp (v : Byte) : (s.push8 v).sp = s.sp - 1 := rfl
@[simp] theorem State.push8_p (v : Byte) : (s.push8 v).p = s.p := rfl
@[simp] theorem State.push8_pc (v : Byte) : (s.push8 v).pc = s.pc := rfl
@[simp] theorem State.push8_ea (v : Byte) : (s.push8 v).ea = s.ea := rfl
@[simp] theorem State.push8_eaAcc (v : Byte) : (s.push8 v).eaAcc = s.eaAcc := rfl
@[simp] theorem State.push8_rel (v : Byte) : (s.push8 v).rel = s.rel := rfl
@[simp] theorem State.push8_penAddr (v : Byte) : (s.push8 v).penAddr = s.penAddr := rfl
@[simp] theorem State.push8_penOp (v : Byte) : (s.push8 v).penOp = s.penOp := rfl
@[simp] theorem State.push8_cycles (v : Byte) : (s.push8 v).cycles = s.cycles := rfl
@[simp] theorem State.push8_instret (v : Byte) : (s.push8 v).instret = s.instret := rfl
@[simp] theorem State.push8_mem (v : Byte) : (s.push8 v).mem = s.mem.write (stackAddr s.sp).toNat v := rfl
@[simp] theorem State.push8_flag (v : Byte) (g : Flag) : (s.push8 v).flag g = s.flag g := rfl

@[simp] theorem State.pull8_a : s.pull8.a = s.a := rfl
@[simp] theorem State.pull8_x : s.pull8.x = s.x := rfl
@[simp] theorem State.pull8_y : s.pull8.y = s.y := rfl
@[simp] theorem State.pull8_sp : s.pull8.sp = s.sp + 1 := rfl
@[simp] theorem State.pull8_p : s.pull8.p = s.p := rfl
@[simp] theorem State.pull8_pc : s.pull8.pc = s.pc := rfl
@[simp] theorem State.pull8_ea : s.pull8.ea = s.ea := rfl
@[simp] theorem State.pull8_eaAcc : s.pull8.eaAcc = s.eaAcc := rfl
@[simp] theorem State.pull8_rel : s.pull8.rel = s.rel := rfl
@[simp] theorem State.pull8_penAddr : s.pull8.penAddr = s.penAddr := rfl
@[simp] theorem State.pull8_penOp : s.pull8.penOp = s.penOp := rfl
@[simp] theorem State.pull8_cycles : s.pull8.cycles = s.cycles := rfl
@[simp] theorem State.pull8_instret : s.pull8.instret = s.instret := rfl
@[simp] theorem State.pull8_mem : s.pull8.mem = s.mem := rfl
@[simp] theorem State.pull8_flag (g : Flag) : s.pull8.flag g = s.flag g := rfl
@[simp] theorem State.pull8_readByte (b : Addr) : s.pull8.readByte b = s.readByte b := rfl

@[simp] theorem State.push16_a (v : Addr) : (s.push16 v).a = s.a := rfl
@[simp] theorem State.push16_x (v : Addr) : (s.push16 v).x = s.x := rfl
@[simp] theorem State.push16_y (v : Addr) : (s.push16 v).y = s.y := rfl
@[simp] theorem State.push16_sp (v : Addr) : (s.push16 v).sp = s.sp - 2 := rfl
@[simp] theorem State.push16_p (v : Addr) : (s.push16 v).p = s.p := rfl
@[simp] theorem State.push16_pc (v : Addr) : (s.push16 v).pc = s.pc := rfl
@[simp] theorem State.push16_ea (v : Addr) : (s.push16 v).ea = s.ea := rfl
@[simp] theorem State.push16_eaAcc (v : Addr) : (s.push16 v).eaAcc = s.eaAcc := rfl
@[simp] theorem State.push16_rel (v : Addr) : (s.push16 v).rel = s.rel := rfl
@[simp] theorem State.push16_penAddr (v : Addr) : (s.push16 v).penAddr = s.penAddr := rfl
@[simp] theorem State.push16_penOp (v : Addr) : (s.push16 v).penOp = s.penOp := rfl
@[simp] theorem State.push16_cycles (v : Addr) : (s.push16 v).cycles = s.cycles := rfl
@[simp] theorem State.push16_instret (v : Addr) : (s.push16 v).instret = s.instret := rfl
@[simp] theorem State.push16_mem (v : Addr) :
    (s.push16 v).mem = (s.mem.write (stackAddr s.sp).toNat (hi v)).write (stackAddr (s.sp - 1)).toNat (lo v) := rfl
@[simp] theorem State.push16_flag (v : Addr) (g : Flag) : (s.push16 v).flag g = s.flag g := rfl

@[simp] theorem State.pull16_a : s.pull16.a = s.a := rfl
@[simp] theorem State.pull16_x : s.pull16.x = s.x := rfl
@[simp] theorem State.pull16_y : s.pull16.y = s.y := rfl
@[simp] theorem State.pull16_sp : s.pull16.sp = s.sp + 2 := rfl
@[simp] theorem State.pull16_p : s.pull16.p = s.p := rfl
@[simp] theorem State.pull16_pc : s.pull16.pc = s.pc := rfl
@[simp] theorem State.pull16_ea : s.pull16.ea = s.ea := rfl
@[simp] theorem State.pull16_eaAcc : s.pull16.eaAcc = s.eaAcc := rfl
@[simp] theorem State.pull16_rel : s.pull16.rel = s.rel := rfl
@[simp] theorem State.pull16_penAddr : s.pull16.penAddr = s.penAddr := rfl
@[simp] theorem State.pull16_penOp : s.pull16.penOp = s.penOp := rfl
@[simp] theorem State.pull16_cycles : s.pull16.cycles = s.cycles := rfl
@[simp] theorem State.pull16_instret : s.pull16.instret = s.instret := rfl
@[simp] theorem State.pull16_mem : s.pull16.mem = s.mem := rfl
@[simp] theorem State.pull16_flag (g : Flag) : s.pull16.flag g = s.flag g := rfl
@[simp] theorem State.pull16_readByte (b : Addr) : s.pull16.readByte b = s.readByte b := rfl

end Sys2Proof.Machine
end

