-- ==== Sys2Proof/Laws/Flags.lean ====
section
/-! SUPPORT. What each flag is after each flag computation. A write of `P` forces the constant flag to 1. -/

namespace Sys2Proof.Machine

theorem flagOf_or_mask (p : Byte) (f g : Flag) : flagOf (p ||| f.mask) g = (decide (g = f) || flagOf p g) := by
  cases f <;> cases g <;> simp [flagOf, Flag.mask, Flag.index]

theorem flagOf_and_not_mask (p : Byte) (f g : Flag) :
    flagOf (p &&& ~~~f.mask) g = (!decide (g = f) && flagOf p g) := by
  cases f <;> cases g <;> simp [flagOf, Flag.mask, Flag.index]

/-- Two status bytes with the same flags are the same byte. -/
theorem flagOf_ext {p q : Byte} (h : ∀ f, flagOf p f = flagOf q f) : p = q := by
  apply BitVec.eq_of_getLsbD_eq
  intro i hi
  have := h .c; have := h .z; have := h .i; have := h .d; have := h .b; have := h .u; have := h .v; have := h .n
  simp only [flagOf, Flag.index] at *
  interval_cases i <;> assumption

variable (s : State)

@[simp] theorem State.flag_setP (v : Byte) (g : Flag) : (s.setP v).flag g = (decide (g = .u) || flagOf v g) :=
  flagOf_or_mask v .u g

@[simp] theorem State.flag_setFlag (f : Flag) (cond : Bool) (g : Flag) :
    (s.setFlag f cond).flag g = (decide (g = .u) || (if g = f then cond else s.flag g)) := by
  unfold State.setFlag
  rw [State.flag_setP]
  cases cond
  · by_cases h : g = f <;> simp [flagOf_and_not_mask, h, State.flag]
  · by_cases h : g = f <;> simp [flagOf_or_mask, h, State.flag]

@[simp] theorem State.flag_setZN (v : Byte) (g : Flag) :
    (s.setZN v).flag g = (decide (g = .u) || (if g = .n then v.msb else if g = .z then v == 0 else s.flag g)) := by
  unfold State.setZN
  cases g <;> simp

@[simp] theorem State.flag_setShiftFlags (out : Bool) (v : Byte) (g : Flag) :
    (s.setShiftFlags out v).flag g =
      (decide (g = .u) ||
        (if g = .n then v.msb else if g = .z then v == 0 else if g = .c then out else s.flag g)) := by
  unfold State.setShiftFlags
  cases g <;> simp

@[simp] theorem State.flag_addWithCarry (m : Byte) (g : Flag) :
    (s.addWithCarry m).flag g =
      (decide (g = .u) ||
        (if g = .v then overflow s.a m (BitVec.ofNat 8 (s.wideSum m))
         else if g = .n then (BitVec.ofNat 8 (s.wideSum m)).msb
         else if g = .z then BitVec.ofNat 8 (s.wideSum m) == 0
         else if g = .c then (s.wideSum m).testBit 8
         else s.flag g)) := by
  have h : (s.addWithCarry m).flag g =
      ((((s.setFlag .c ((s.wideSum m).testBit 8)).setZN (BitVec.ofNat 8 (s.wideSum m))).setFlag .v
        (overflow s.a m (BitVec.ofNat 8 (s.wideSum m)))).flag g) := rfl
  rw [h]
  cases g <;> simp

@[simp] theorem State.flag_compare (r m : Byte) (g : Flag) :
    (s.compare r m).flag g =
      (decide (g = .u) ||
        (if g = .n then (r - m).msb else if g = .z then r == m else if g = .c then m.ule r else s.flag g)) := by
  unfold State.compare
  cases g <;> simp

@[simp] theorem State.flag_bitTest (m : Byte) (g : Flag) :
    (s.bitTest m).flag g =
      (decide (g = .u) ||
        (if g = .v then m.getLsbD 6 else if g = .n then m.getLsbD 7
         else if g = .z then s.a &&& m == 0 else s.flag g)) := by
  unfold State.bitTest
  cases g <;> simp

/-- `N` of a byte is its value of 128 or more. -/
theorem msb_eq_decide (v : Byte) : v.msb = decide (128 ≤ v.toNat) := by
  rw [BitVec.msb_eq_decide]

/-- `Z` of a byte is its value of 0. -/
theorem beq_zero_eq_decide (v : Byte) : (v == 0) = decide (v.toNat = 0) := by
  rw [Bool.eq_iff_iff]
  simp [← BitVec.toNat_inj]

/-- The pushed status byte: the break flag is 1, the others are those of `P`. -/
theorem State.flagOf_pushedP (g : Flag) : flagOf s.pushedP g = (decide (g = .b) || s.flag g) :=
  flagOf_or_mask s.p .b g

end Sys2Proof.Machine
end

