-- ==== Sys2Proof/Laws/Memory.lean ====
section
/-! SUPPORT. The laws of the byte store: a read gives the byte last written there, a write leaves every other byte alone (on any
list, canonical or not), and a write to an address of the store keeps the canonical form. -/

namespace Sys2Proof.Machine

theorem Memory.read_insert (m : Memory) (a b : Nat) (v : Byte) :
    (m.insert a v).read b = if b = a then v else m.read b := by
  induction m with
  | nil => simp only [Memory.insert, Memory.read, eq_comm]
  | cons c m ih =>
    obtain ⟨k, w⟩ := c
    simp only [Memory.insert]
    split_ifs with h₁ h₂ h₃ h₄ h₅ <;> simp only [Memory.read, ih] <;> split_ifs <;> first | rfl | omega

theorem Memory.read_filter_same (m : Memory) (a : Nat) :
    Memory.read (m.filter (fun c => c.1 != a)) a = Memory.unlisted := by
  induction m with
  | nil => rfl
  | cons c m ih =>
    by_cases h : c.1 = a
    · simpa [h] using ih
    · simpa [h, Memory.read] using ih

theorem Memory.read_filter_ne (m : Memory) {a b : Nat} (h : b ≠ a) :
    Memory.read (m.filter (fun c => c.1 != a)) b = m.read b := by
  induction m with
  | nil => rfl
  | cons c m ih =>
    obtain ⟨k, w⟩ := c
    by_cases hk : k = a
    · subst hk
      simpa [Memory.read, Ne.symm h] using ih
    · have keep : List.filter (fun c : Host.Cell => c.1 != a) ((k, w) :: m) =
          (k, w) :: m.filter (fun c => c.1 != a) := by simp [hk]
      simp only [keep, Memory.read, ih]

theorem Memory.read_write (m : Memory) (a b : Nat) (v : Byte) :
    (m.write a v).read b = if b = a then v else m.read b := by
  unfold Memory.write
  split
  · next h =>
    split
    · next hb => subst hb; rw [Memory.read_filter_same, h]
    · next hb => exact Memory.read_filter_ne m hb
  · exact Memory.read_insert m a b v

@[simp] theorem Memory.read_write_same (m : Memory) (a : Nat) (v : Byte) : (m.write a v).read a = v := by
  simp [Memory.read_write]

theorem Memory.read_write_ne (m : Memory) {a b : Nat} (v : Byte) (h : b ≠ a) :
    (m.write a v).read b = m.read b := by
  simp [Memory.read_write, h]

theorem Memory.wfFrom_mono {m : Memory} {i j : Nat} (hij : i ≤ j) (h : Memory.wfFrom j m = true) :
    Memory.wfFrom i m = true := by
  cases m with
  | nil => rfl
  | cons c m =>
    simp only [Memory.wfFrom, Bool.and_eq_true, decide_eq_true_eq] at h ⊢
    exact ⟨⟨⟨by omega, h.1.1.2⟩, h.1.2⟩, h.2⟩

theorem Memory.wfFrom_insert {m : Memory} {i a : Nat} {v : Byte} (hia : i ≤ a) (ha : a < Config.memSize)
    (hv : v ≠ Memory.unlisted) (h : Memory.wfFrom i m = true) : Memory.wfFrom i (m.insert a v) = true := by
  induction m generalizing i with
  | nil => simp [Memory.insert, Memory.wfFrom, hia, ha, hv]
  | cons c m ih =>
    obtain ⟨k, w⟩ := c
    simp only [Memory.wfFrom, Bool.and_eq_true, decide_eq_true_eq] at h
    obtain ⟨⟨⟨hik, hk⟩, hw⟩, hm⟩ := h
    simp only [Memory.insert]
    split_ifs with h₁ h₂ <;> simp only [Memory.wfFrom, Bool.and_eq_true, decide_eq_true_eq]
    · exact ⟨⟨⟨hia, ha⟩, hv⟩, ⟨⟨⟨by omega, hk⟩, hw⟩, hm⟩⟩
    · exact ⟨⟨⟨hik, hk⟩, hv⟩, hm⟩
    · exact ⟨⟨⟨hik, hk⟩, hw⟩, ih (by omega) hm⟩

theorem Memory.wfFrom_filter {m : Memory} {i a : Nat} (h : Memory.wfFrom i m = true) :
    Memory.wfFrom i (m.filter (fun c => c.1 != a)) = true := by
  induction m generalizing i with
  | nil => rfl
  | cons c m ih =>
    obtain ⟨k, w⟩ := c
    simp only [Memory.wfFrom, Bool.and_eq_true, decide_eq_true_eq] at h
    obtain ⟨⟨⟨hik, hk⟩, hw⟩, hm⟩ := h
    by_cases hka : k = a
    · simpa [hka] using ih (Memory.wfFrom_mono (by omega) hm)
    · simp only [List.filter_cons, bne_iff_ne, ne_eq, hka, not_false_eq_true, if_true, Memory.wfFrom, Bool.and_eq_true,
        decide_eq_true_eq]
      exact ⟨⟨⟨hik, hk⟩, hw⟩, ih hm⟩

/-- A write to an address of the store keeps the canonical form. -/
theorem Memory.wf_write {m : Memory} {a : Nat} (v : Byte) (ha : a < Config.memSize) (h : m.wf = true) :
    (m.write a v).wf = true := by
  unfold Memory.write
  split
  · exact Memory.wfFrom_filter h
  · next hv => exact Memory.wfFrom_insert (Nat.zero_le a) ha hv h

/-- Below its first address a canonical list lists nothing. -/
theorem Memory.read_eq_unlisted_of_lt {m : Memory} {i b : Nat} (h : Memory.wfFrom i m = true) (hb : b < i) :
    m.read b = Memory.unlisted := by
  induction m generalizing i with
  | nil => rfl
  | cons c m ih =>
    obtain ⟨k, w⟩ := c
    simp only [Memory.wfFrom, Bool.and_eq_true, decide_eq_true_eq] at h
    obtain ⟨⟨⟨hik, hk⟩, hw⟩, hm⟩ := h
    have hne : k ≠ b := by omega
    simpa [Memory.read, hne] using ih hm (by omega)

/-- Two canonical memories that read alike everywhere are equal, so equal contents are equal data. -/
theorem Memory.ext_read {m₁ m₂ : Memory} {i : Nat} (h₁ : Memory.wfFrom i m₁ = true) (h₂ : Memory.wfFrom i m₂ = true)
    (h : ∀ a, m₁.read a = m₂.read a) : m₁ = m₂ := by
  induction m₁ generalizing m₂ i with
  | nil =>
    cases m₂ with
    | nil => rfl
    | cons c m₂ =>
      simp only [Memory.wfFrom, Bool.and_eq_true, decide_eq_true_eq] at h₂
      have hc := h c.1
      simp only [Memory.read, if_true] at hc
      exact absurd hc.symm h₂.1.2
  | cons c m₁ ih =>
    obtain ⟨k, w⟩ := c
    simp only [Memory.wfFrom, Bool.and_eq_true, decide_eq_true_eq] at h₁
    cases m₂ with
    | nil =>
      have hk := h k
      simp only [Memory.read, if_true] at hk
      exact absurd hk h₁.1.2
    | cons c₂ m₂ =>
      obtain ⟨k₂, w₂⟩ := c₂
      simp only [Memory.wfFrom, Bool.and_eq_true, decide_eq_true_eq] at h₂
      have hk := h k
      have hk₂ := h k₂
      simp only [Memory.read, if_true] at hk hk₂
      rcases lt_trichotomy k k₂ with hlt | rfl | hlt
      · rw [if_neg (by omega), Memory.read_eq_unlisted_of_lt h₂.2 (by omega)] at hk
        exact absurd hk h₁.1.2
      · have hw : w = w₂ := by simpa using hk
        subst hw
        congr 1
        refine ih h₁.2 h₂.2 fun b => ?_
        have hb := h b
        by_cases hkb : k = b
        · subst hkb
          rw [Memory.read_eq_unlisted_of_lt h₁.2 (by omega), Memory.read_eq_unlisted_of_lt h₂.2 (by omega)]
        · simpa only [Memory.read, hkb, if_false] using hb
      · rw [if_neg (by omega), Memory.read_eq_unlisted_of_lt h₁.2 (by omega)] at hk₂
        exact absurd hk₂.symm h₂.1.2

end Sys2Proof.Machine
end

