-- ==== Sys2Proof/Laws/Ops.lean ====
section
/-! SUPPORT. What the shared operations of Machine/Ops.lean do: the memory port, the stack, the branch helper, taking the BRK
interrupt and returning from it. -/

namespace Sys2Proof.Machine

variable (s : State)

/-- A read gives the byte last written there, and every other byte is as before (R32). -/
theorem State.readByte_writeByte (addr b : Addr) (v : Byte) :
    (s.writeByte addr v).readByte b = if b = addr then v else s.readByte b := by
  simp only [State.readByte, State.writeByte_mem, Memory.read_write, BitVec.toNat_inj]

theorem State.readByte_push8 (v : Byte) (b : Addr) :
    (s.push8 v).readByte b = if b = stackAddr s.sp then v else s.readByte b :=
  s.readByte_writeByte _ _ _

theorem State.readByte_push16 (v : Addr) (b : Addr) :
    (s.push16 v).readByte b =
      if b = stackAddr (s.sp - 1) then lo v else if b = stackAddr s.sp then hi v else s.readByte b := by
  have h : (s.push16 v).readByte b =
      ((s.writeByte (stackAddr s.sp) (hi v)).writeByte (stackAddr (s.sp - 1)) (lo v)).readByte b := rfl
  rw [h, State.readByte_writeByte, State.readByte_writeByte]

/-- Every byte the core writes keeps the canonical form (R29: the address is one of the store's). -/
theorem State.wf_writeByte (addr : Addr) (v : Byte) (h : s.mem.wf = true) : (s.writeByte addr v).mem.wf = true :=
  Memory.wf_write v (by simpa [Config.memSize] using addr.isLt) h

theorem State.wf_push8 (v : Byte) (h : s.mem.wf = true) : (s.push8 v).mem.wf = true := s.wf_writeByte _ v h

theorem State.wf_push16 (v : Addr) (h : s.mem.wf = true) : (s.push16 v).mem.wf = true :=
  State.wf_writeByte _ _ _ (s.wf_writeByte _ _ h)

/-- A pull after a push gives the byte pushed and the stack pointer before it (R37). -/
theorem State.pulled8_push8 (v : Byte) : (s.push8 v).pulled8 = v := by
  simp [State.pulled8, State.readByte_push8]

theorem State.pulled16_push16 (v : Addr) : (s.push16 v).pulled16 = v := by
  have h₁ : s.sp - 2#8 + 2#8 = s.sp := by bv_omega
  have h₂ : s.sp - 2#8 + 1#8 = s.sp - 1#8 := by bv_omega
  have h₃ : s.sp ≠ s.sp - 1#8 := by bv_omega
  simp [State.pulled16, State.readByte_push16, h₁, h₂, h₃, stackAddr_inj]

section branch

@[simp] theorem State.branch_false : s.branch false = s := rfl

/-- A taken branch moves `PC` by the displacement and charges one cycle, two where it leaves the page (R92). -/
theorem State.branch_true :
    s.branch true = (s.setPC (s.pc + s.rel)).addCycles (if page (s.pc + s.rel) ≠ page s.pc then 2 else 1) := rfl

/-- A branch changes nothing but `PC` and the cycle count (R92). -/
theorem State.branch_frame (cond : Bool) :
    (s.branch cond).a = s.a ∧ (s.branch cond).x = s.x ∧ (s.branch cond).y = s.y ∧ (s.branch cond).sp = s.sp ∧
      (s.branch cond).p = s.p ∧ (s.branch cond).ea = s.ea ∧ (s.branch cond).eaAcc = s.eaAcc ∧
      (s.branch cond).rel = s.rel ∧ (s.branch cond).penAddr = s.penAddr ∧ (s.branch cond).penOp = s.penOp ∧
      (s.branch cond).instret = s.instret ∧ (s.branch cond).mem = s.mem := by
  cases cond <;> exact ⟨rfl, rfl, rfl, rfl, rfl, rfl, rfl, rfl, rfl, rfl, rfl, rfl⟩

end branch

section interrupt

@[simp] theorem State.takeInterrupt_a : s.takeInterrupt.a = s.a := by simp [State.takeInterrupt]
@[simp] theorem State.takeInterrupt_x : s.takeInterrupt.x = s.x := by simp [State.takeInterrupt]
@[simp] theorem State.takeInterrupt_y : s.takeInterrupt.y = s.y := by simp [State.takeInterrupt]
@[simp] theorem State.takeInterrupt_ea : s.takeInterrupt.ea = s.ea := by simp [State.takeInterrupt]
@[simp] theorem State.takeInterrupt_eaAcc : s.takeInterrupt.eaAcc = s.eaAcc := by simp [State.takeInterrupt]
@[simp] theorem State.takeInterrupt_rel : s.takeInterrupt.rel = s.rel := by simp [State.takeInterrupt]
@[simp] theorem State.takeInterrupt_penAddr : s.takeInterrupt.penAddr = s.penAddr := by simp [State.takeInterrupt]
@[simp] theorem State.takeInterrupt_penOp : s.takeInterrupt.penOp = s.penOp := by simp [State.takeInterrupt]
@[simp] theorem State.takeInterrupt_cycles : s.takeInterrupt.cycles = s.cycles := by simp [State.takeInterrupt]
@[simp] theorem State.takeInterrupt_instret : s.takeInterrupt.instret = s.instret := by simp [State.takeInterrupt]

@[simp] theorem State.returnFromInterrupt_a : s.returnFromInterrupt.a = s.a := by simp [State.returnFromInterrupt]
@[simp] theorem State.returnFromInterrupt_x : s.returnFromInterrupt.x = s.x := by simp [State.returnFromInterrupt]
@[simp] theorem State.returnFromInterrupt_y : s.returnFromInterrupt.y = s.y := by simp [State.returnFromInterrupt]
@[simp] theorem State.returnFromInterrupt_ea : s.returnFromInterrupt.ea = s.ea := by simp [State.returnFromInterrupt]
@[simp] theorem State.returnFromInterrupt_eaAcc : s.returnFromInterrupt.eaAcc = s.eaAcc := by simp [State.returnFromInterrupt]
@[simp] theorem State.returnFromInterrupt_rel : s.returnFromInterrupt.rel = s.rel := by simp [State.returnFromInterrupt]
@[simp] theorem State.returnFromInterrupt_penAddr : s.returnFromInterrupt.penAddr = s.penAddr := by simp [State.returnFromInterrupt]
@[simp] theorem State.returnFromInterrupt_penOp : s.returnFromInterrupt.penOp = s.penOp := by simp [State.returnFromInterrupt]
@[simp] theorem State.returnFromInterrupt_cycles : s.returnFromInterrupt.cycles = s.cycles := by simp [State.returnFromInterrupt]
@[simp] theorem State.returnFromInterrupt_instret : s.returnFromInterrupt.instret = s.instret := by simp [State.returnFromInterrupt]
@[simp] theorem State.returnFromInterrupt_mem : s.returnFromInterrupt.mem = s.mem := by simp [State.returnFromInterrupt]

/-- The memory after the interrupt is taken: three stack bytes, from `SP` down (R108). -/
theorem State.readByte_takeInterrupt (b : Addr) :
    s.takeInterrupt.readByte b =
      if b = stackAddr (s.sp - 2) then s.pushedP
      else if b = stackAddr (s.sp - 1) then lo (s.pc + 1)
      else if b = stackAddr s.sp then hi (s.pc + 1)
      else s.readByte b := by
  have h : s.takeInterrupt.readByte b = (((s.advancePC 1).push16 (s.pc + 1)).push8 s.pushedP).readByte b := rfl
  rw [h, State.readByte_push8, State.readByte_push16]
  rfl

@[simp] theorem State.takeInterrupt_sp : s.takeInterrupt.sp = s.sp - 3 := by
  have h : s.takeInterrupt.sp = s.sp - 2 - 1 := rfl
  rw [h]
  bv_omega

@[simp] theorem State.flag_takeInterrupt (g : Flag) :
    s.takeInterrupt.flag g = (decide (g = .u) || (if g = .i then true else s.flag g)) := by
  have h : s.takeInterrupt.flag g = ((((s.advancePC 1).push16 (s.pc + 1)).push8 s.pushedP).setFlag .i true).flag g := rfl
  rw [h, State.flag_setFlag]
  simp

theorem State.wf_takeInterrupt (h : s.mem.wf = true) : s.takeInterrupt.mem.wf = true :=
  State.wf_push8 _ _ (State.wf_push16 (s.advancePC 1) _ h)

/-- `PC` after the interrupt is taken is the word at the BRK vector, read after the pushes, which lie in the stack page and so
cannot change it (R108). -/
theorem State.takeInterrupt_pc : s.takeInterrupt.pc = word (s.readByte 0xFFFF#16) (s.readByte 0xFFFE#16) := by
  have far : ∀ (b : Addr) (i : Byte), page b ≠ 0x01#8 → b ≠ stackAddr i := by
    rintro b i hb rfl
    exact hb (page_stackAddr i)
  have keep : ∀ b : Addr, page b ≠ 0x01#8 →
      (((s.advancePC 1).push16 (s.pc + 1)).push8 s.pushedP).readByte b = s.readByte b := by
    intro b hb
    rw [State.readByte_push8, State.readByte_push16]
    simp [far b _ hb]
  have h : s.takeInterrupt.pc =
      word ((((s.advancePC 1).push16 (s.pc + 1)).push8 s.pushedP).readByte 0xFFFF#16)
        ((((s.advancePC 1).push16 (s.pc + 1)).push8 s.pushedP).readByte 0xFFFE#16) := rfl
  rw [h, keep _ (by decide), keep _ (by decide)]

@[simp] theorem State.returnFromInterrupt_sp : s.returnFromInterrupt.sp = s.sp + 3 := by
  have h : s.returnFromInterrupt.sp = s.sp + 1 + 2 := rfl
  rw [h]
  bv_omega

@[simp] theorem State.returnFromInterrupt_p : s.returnFromInterrupt.p = s.pulled8 ||| Flag.u.mask := rfl

theorem State.returnFromInterrupt_pc :
    s.returnFromInterrupt.pc = word (s.readByte (stackAddr (s.sp + 3))) (s.readByte (stackAddr (s.sp + 2))) := by
  have h : s.returnFromInterrupt.pc =
      word (s.readByte (stackAddr (s.sp + 1 + 2))) (s.readByte (stackAddr (s.sp + 1 + 1))) := rfl
  have h₁ : s.sp + 1 + 2 = s.sp + 3 := by bv_omega
  have h₂ : s.sp + 1 + 1 = s.sp + 2 := by bv_omega
  rw [h, h₁, h₂]

@[simp] theorem State.flag_returnFromInterrupt (g : Flag) :
    s.returnFromInterrupt.flag g = (decide (g = .u) || flagOf s.pulled8 g) :=
  flagOf_or_mask s.pulled8 .u g

@[simp] theorem State.readByte_returnFromInterrupt (b : Addr) : s.returnFromInterrupt.readByte b = s.readByte b := rfl

end interrupt

end Sys2Proof.Machine
end

