-- ==== Sys2Proof/Laws/Operands.lean ====
section
/-! SUPPORT. What a resolver and the two operand accesses do: a resolver writes only `PC`, the scratch registers and `pen_addr`
(spec/20_memory.md R54). -/

namespace Sys2Proof.Machine

variable (s : State) (o : Operand)

@[simp] theorem State.resolve_a : (s.resolve o).a = s.a := by cases o <;> rfl
@[simp] theorem State.resolve_x : (s.resolve o).x = s.x := by cases o <;> rfl
@[simp] theorem State.resolve_y : (s.resolve o).y = s.y := by cases o <;> rfl
@[simp] theorem State.resolve_sp : (s.resolve o).sp = s.sp := by cases o <;> rfl
@[simp] theorem State.resolve_p : (s.resolve o).p = s.p := by cases o <;> rfl
@[simp] theorem State.resolve_penOp : (s.resolve o).penOp = s.penOp := by cases o <;> rfl
@[simp] theorem State.resolve_cycles : (s.resolve o).cycles = s.cycles := by cases o <;> rfl
@[simp] theorem State.resolve_instret : (s.resolve o).instret = s.instret := by cases o <;> rfl
@[simp] theorem State.resolve_mem : (s.resolve o).mem = s.mem := by cases o <;> rfl

@[simp] theorem State.resolve_flag (g : Flag) : (s.resolve o).flag g = s.flag g := by cases o <;> rfl

@[simp] theorem State.resolve_readByte (b : Addr) : (s.resolve o).readByte b = s.readByte b := by cases o <;> rfl

/-- A resolver consumes its operand bytes (R55). -/
@[simp] theorem State.resolve_pc : (s.resolve o).pc = s.pc + BitVec.ofNat 16 o.width := by
  cases o <;> simp [State.resolve, Operand.width, Operand.mode, Mode.width]

/-- `pen_addr` is set exactly by a page crossing (R53). -/
@[simp] theorem State.resolve_penAddr : (s.resolve o).penAddr = (s.penAddr || s.crossesPage o) := by
  cases o <;> simp [State.resolve, State.crossesPage]

/-- The modes that compute an address store it and clear the sentinel (R19). -/
theorem State.resolve_ea (h : o.mode ∉ [Mode.imp, .acc, .rel]) :
    (s.resolve o).ea = s.effAddr o ∧ (s.resolve o).eaAcc = false := by
  cases o <;> simp_all [State.resolve, Operand.mode]

@[simp] theorem State.resolve_abs_ea (w : Addr) : (s.resolve (.abs w)).ea = w := rfl

@[simp] theorem State.resolve_acc_eaAcc : (s.resolve .acc).eaAcc = true := rfl

@[simp] theorem State.resolve_rel_rel (d : Byte) : (s.resolve (.rel d)).rel = sext16 d := rfl

/-- Indexing in page zero stays in page zero (R44, R45). -/
theorem State.effAddr_zeroPage (b : Byte) :
    page (s.effAddr (.zp b)) = 0 ∧ page (s.effAddr (.zpx b)) = 0 ∧ page (s.effAddr (.zpy b)) = 0 := by
  have h : ∀ v : Byte, page (zext16 v) = 0 := by
    intro v
    have := v.isLt
    apply BitVec.eq_of_toNat_eq
    simp only [page, hi_toNat, zext16_toNat]
    simp
    omega
  exact ⟨h _, h _, h _⟩

/-- `Put` writes the accumulator or the byte at `ea`, nothing else (R39). -/
theorem State.put_frame (v : Byte) :
    (s.put v).x = s.x ∧ (s.put v).y = s.y ∧ (s.put v).sp = s.sp ∧ (s.put v).p = s.p ∧ (s.put v).pc = s.pc ∧
      (s.put v).penAddr = s.penAddr ∧ (s.put v).penOp = s.penOp ∧ (s.put v).cycles = s.cycles ∧
      (s.put v).instret = s.instret := by
  unfold State.put
  split <;> exact ⟨rfl, rfl, rfl, rfl, rfl, rfl, rfl, rfl, rfl⟩

theorem State.put_a (v : Byte) : (s.put v).a = if s.eaAcc then v else s.a := by
  unfold State.put
  split <;> rfl

theorem State.put_readByte (v : Byte) (b : Addr) :
    (s.put v).readByte b = if s.eaAcc = false ∧ b = s.ea then v else s.readByte b := by
  unfold State.put
  cases h : s.eaAcc
  · simp [State.readByte_writeByte]
  · simp

theorem State.wf_put (v : Byte) (h : s.mem.wf = true) : (s.put v).mem.wf = true := by
  unfold State.put
  split
  · exact h
  · exact s.wf_writeByte _ v h

end Sys2Proof.Machine
end

