-- ==== Sys2Proof/Laws/Phases.lean ====
section
/-! SUPPORT. What `runInstr` can answer: the next state of the step's phases where the term has an opcode byte, the refusal
`notInCatalog` where it has none. -/

namespace Sys2Proof.Machine

variable {i : Instr} {handler : State → State} {s t : State} {op : Byte}

theorem runInstr_of_opcode (h : i.opcode = some op) :
    runInstr i handler s =
      .next ((handler (s.beginStep.resolve i.operand)).account (catalogRow op).baseCycles) := by
  simp [runInstr, h]

theorem runInstr_eq_next (h : runInstr i handler s = .next t) :
    ∃ op, i.opcode = some op ∧
      t = (handler (s.beginStep.resolve i.operand)).account (catalogRow op).baseCycles := by
  unfold runInstr at h
  split at h
  · cases h
  · next op hop => exact ⟨op, hop, by injection h with h; exact h.symm⟩

theorem runInstr_of_no_opcode (h : i.opcode = none) : runInstr i handler s = .refused .notInCatalog := by
  simp [runInstr, h]

end Sys2Proof.Machine
end

