-- ==== Sys2Proof/Laws/Exec.lean ====
section
/-! SUPPORT. What `exec` does, said once: the phases of the step around the handler of the instruction. A proof about `exec` rewrites
with `exec_eq_runInstr`, and one from a next state starts with `exec_eq_next`. -/

namespace Sys2Proof.Machine

/-- The handler of each instruction, as the meanings name it. -/
def handlerOf : Instr → State → State
  | .adc o => handleAdc o
  | .sbc o => handleSbc o
  | .and o => handleAnd o
  | .ora o => handleOra o
  | .eor o => handleEor o
  | .asl o => handleAsl o
  | .lsr o => handleLsr o
  | .rol o => handleRol o
  | .ror o => handleRor o
  | .inc o => handleInc o
  | .dec o => handleDec o
  | .inx => handleInx
  | .iny => handleIny
  | .dex => handleDex
  | .dey => handleDey
  | .cmp o => handleCmp o
  | .cpx o => handleCpx o
  | .cpy o => handleCpy o
  | .bit o => handleBit o
  | .bcc _ => handleBcc
  | .bcs _ => handleBcs
  | .beq _ => handleBeq
  | .bne _ => handleBne
  | .bmi _ => handleBmi
  | .bpl _ => handleBpl
  | .bvc _ => handleBvc
  | .bvs _ => handleBvs
  | .pha => handlePha
  | .php => handlePhp
  | .pla => handlePla
  | .plp => handlePlp
  | .jsr _ => handleJsr
  | .rts => handleRts
  | .rti => handleRti
  | .brk => handleBrk
  | .tax => handleTax
  | .tay => handleTay
  | .txa => handleTxa
  | .tya => handleTya
  | .tsx => handleTsx
  | .txs => handleTxs
  | .sec => handleSec
  | .clc => handleClc
  | .sei => handleSei
  | .cli => handleCli
  | .sed => handleSed
  | .cld => handleCld
  | .clv => handleClv
  | .nop => handleNop
  | .nopUndoc op _ => handleNopUndoc op
  | .lda o => handleLda o
  | .ldx o => handleLdx o
  | .ldy o => handleLdy o
  | .sta _ => handleSta
  | .stx _ => handleStx
  | .sty _ => handleSty
  | .jmp _ => handleJmp

theorem exec_eq_runInstr (i : Instr) (s : State) : exec i s = runInstr i (handlerOf i) s := by
  cases i <;> rfl

/-- Where `exec` answers a next state, the term has an opcode byte and the state is the one the phases give. -/
theorem exec_eq_next {i : Instr} {s t : State} (h : exec i s = .next t) :
    ∃ op, i.opcode = some op ∧
      t = (handlerOf i (s.beginStep.resolve i.operand)).account (catalogRow op).baseCycles :=
  runInstr_eq_next ((exec_eq_runInstr i s).symm.trans h)

theorem exec_of_opcode {i : Instr} {op : Byte} (s : State) (h : i.opcode = some op) :
    exec i s = .next ((handlerOf i (s.beginStep.resolve i.operand)).account (catalogRow op).baseCycles) :=
  (exec_eq_runInstr i s).trans (runInstr_of_opcode h)

end Sys2Proof.Machine
end

