-- ==== Sys2Proof/Laws/Claims.lean ====
section
/-! SUPPORT. The vocabulary of Safety.lean against the meanings: the operand value a handler sees is `operandByte`, and the flag
tests of the meanings are those of `ZeroNegativeOf`. -/

namespace Sys2Proof.Machine

/-- The value a handler sees after its resolver is the operand byte of the state before the step. -/
theorem State.operandValue_resolve (s : State) (o : Operand) (h : o.mode ∉ [Mode.imp, .rel]) :
    (s.beginStep.resolve o).operandValue o = s.operandByte o := by
  cases o <;> first | rfl | (simp [Operand.mode] at h)

theorem zeroNegativeOf_intro {v : Byte} {t : State} (hz : t.flag .z = (v == 0)) (hn : t.flag .n = v.msb) :
    ZeroNegativeOf v t :=
  ⟨hz.trans (beq_zero_eq_decide v), hn.trans (msb_eq_decide v)⟩

/-- The end of a step whose handler wrote neither `PC` nor the counters (R10, R67). -/
theorem endsAfter_account {o : Operand} {op : Byte} {penalty : Bool} {s r : State}
    (hpc : r.pc = s.pc + 1 + BitVec.ofNat 16 o.width) (hc : r.cycles = s.cycles) (hi : r.instret = s.instret)
    (hp : (r.penAddr && r.penOp) = penalty) : EndsAfter o op penalty s (r.account (catalogRow op).baseCycles) := by
  refine ⟨?_, ?_, ?_⟩
  · rw [State.account_pc, hpc, BitVec.ofNat_add, ← BitVec.add_assoc]; rfl
  · rw [State.account_cycles, hc, hp, Nat.add_assoc]
  · rw [State.account_instret, hi]

end Sys2Proof.Machine
end

