-- ==== Sys2Proof/Laws/Encoding.lean ====
section
/-! SUPPORT. The encoder against the catalog: the opcode byte an instruction's own rule gives it has, in the catalog, that
instruction's handler and mode; and an operand is read back from its bytes. -/

namespace Sys2Proof

/-- An undocumented byte has the NOP handler in the catalog and is not the documented NOP (R63). -/
theorem undocumented_row : ∀ op : Byte, isUndocumented op = true → (catalogRow op).handler = .nop ∧ op ≠ 0xEA := by
  decide

/-- The catalog row of an instruction's opcode byte is its handler in its operand's mode. -/
theorem row_of_opcode {i : Instr} {op : Byte} (h : i.opcode = some op) :
    (catalogRow op).handler = i.handler ∧ (catalogRow op).mode = i.operand.mode := by
  cases i
  case nopUndoc b o =>
    simp only [Instr.opcode] at h
    split at h
    · next hc =>
      rw [Bool.and_eq_true, beq_iff_eq] at hc
      injection h with h
      subst h
      exact ⟨(undocumented_row b hc.1).1, hc.2⟩
    · cases h
  all_goals
    first
    | (injection h with h; subst h; exact ⟨rfl, rfl⟩)
    | (rename_i o; cases o <;> first | (cases h; done) | (injection h with h; subst h; exact ⟨rfl, rfl⟩))

/-- The bytes of an operand are as many as its mode consumes. -/
theorem length_bytes (o : Operand) : o.bytes.length = o.width := by
  cases o <;> rfl

/-- An operand is the operand of its mode whose bytes are its own (R56). -/
theorem operandOf_bytes (o : Operand) (b1 b2 : Byte) :
    operandOf o.mode (o.bytes.getD 0 b1) (o.bytes.getD 1 b2) = o := by
  cases o <;> simp [operandOf, Operand.mode, Operand.bytes]

/-- The bytes of an instruction that has an opcode byte. -/
theorem encode_of_opcode {i : Instr} {op : Byte} (h : i.opcode = some op) : encode i = op :: i.operand.bytes := by
  simp [encode, h]

/-- What is read from an opcode byte has that opcode byte, so the decoder makes no ill-formed term. -/
theorem opcode_decodeFields (op b1 b2 : Byte) : (decodeFields op b1 b2).opcode = some op := by
  have closed : ∀ op : Byte, (decodeFields op 0 0).opcode = some op := by decide +kernel
  have modeOnly : (decodeFields op b1 b2).opcode = (decodeFields op 0 0).opcode := by
    unfold decodeFields instrOf
    cases hm : (catalogRow op).mode <;> cases (catalogRow op).handler <;>
      first
      | rfl
      | (simp only [operandOf]; split <;> simp [Instr.opcode, Operand.mode, hm])
  rw [modeOnly, closed]

end Sys2Proof
end

