-- ==== Sys2Proof/Laws/PerInstr.lean ====
section
/-! SUPPORT. Per instruction: an opcode byte encodes the term exactly where it is well-formed. The modes of `Instr.wf` and the
opcode bytes of `Instr.opcode` are two readings of the same rules. -/

namespace Sys2Proof.Laws.OpcodeOfWellFormed

open Sys2Proof

/-- The term has an opcode byte if and only if it is well-formed. -/
def Statement (i : Instr) : Prop := i.opcode.isSome = i.wf

theorem adc (o : Operand) : Statement (.adc o) := by cases o <;> rfl
theorem sbc (o : Operand) : Statement (.sbc o) := by cases o <;> rfl
theorem and (o : Operand) : Statement (.and o) := by cases o <;> rfl
theorem ora (o : Operand) : Statement (.ora o) := by cases o <;> rfl
theorem eor (o : Operand) : Statement (.eor o) := by cases o <;> rfl
theorem asl (o : Operand) : Statement (.asl o) := by cases o <;> rfl
theorem lsr (o : Operand) : Statement (.lsr o) := by cases o <;> rfl
theorem rol (o : Operand) : Statement (.rol o) := by cases o <;> rfl
theorem ror (o : Operand) : Statement (.ror o) := by cases o <;> rfl
theorem inc (o : Operand) : Statement (.inc o) := by cases o <;> rfl
theorem dec (o : Operand) : Statement (.dec o) := by cases o <;> rfl
theorem inx : Statement .inx := rfl
theorem iny : Statement .iny := rfl
theorem dex : Statement .dex := rfl
theorem dey : Statement .dey := rfl
theorem cmp (o : Operand) : Statement (.cmp o) := by cases o <;> rfl
theorem cpx (o : Operand) : Statement (.cpx o) := by cases o <;> rfl
theorem cpy (o : Operand) : Statement (.cpy o) := by cases o <;> rfl
theorem bit (o : Operand) : Statement (.bit o) := by cases o <;> rfl
theorem bcc (d : Byte) : Statement (.bcc d) := rfl
theorem bcs (d : Byte) : Statement (.bcs d) := rfl
theorem beq (d : Byte) : Statement (.beq d) := rfl
theorem bne (d : Byte) : Statement (.bne d) := rfl
theorem bmi (d : Byte) : Statement (.bmi d) := rfl
theorem bpl (d : Byte) : Statement (.bpl d) := rfl
theorem bvc (d : Byte) : Statement (.bvc d) := rfl
theorem bvs (d : Byte) : Statement (.bvs d) := rfl
theorem pha : Statement .pha := rfl
theorem php : Statement .php := rfl
theorem pla : Statement .pla := rfl
theorem plp : Statement .plp := rfl
theorem jsr (target : Addr) : Statement (.jsr target) := rfl
theorem rts : Statement .rts := rfl
theorem rti : Statement .rti := rfl
theorem brk : Statement .brk := rfl
theorem tax : Statement .tax := rfl
theorem tay : Statement .tay := rfl
theorem txa : Statement .txa := rfl
theorem tya : Statement .tya := rfl
theorem tsx : Statement .tsx := rfl
theorem txs : Statement .txs := rfl
theorem sec : Statement .sec := rfl
theorem clc : Statement .clc := rfl
theorem sei : Statement .sei := rfl
theorem cli : Statement .cli := rfl
theorem sed : Statement .sed := rfl
theorem cld : Statement .cld := rfl
theorem clv : Statement .clv := rfl
theorem nop : Statement .nop := rfl
theorem nopUndoc (op : Byte) (o : Operand) : Statement (.nopUndoc op o) := by
  simp only [Statement, Instr.opcode, Instr.wf]
  split <;> simp_all
theorem lda (o : Operand) : Statement (.lda o) := by cases o <;> rfl
theorem ldx (o : Operand) : Statement (.ldx o) := by cases o <;> rfl
theorem ldy (o : Operand) : Statement (.ldy o) := by cases o <;> rfl
theorem sta (o : Operand) : Statement (.sta o) := by cases o <;> rfl
theorem stx (o : Operand) : Statement (.stx o) := by cases o <;> rfl
theorem sty (o : Operand) : Statement (.sty o) := by cases o <;> rfl
theorem jmp (o : Operand) : Statement (.jmp o) := by cases o <;> rfl

end Sys2Proof.Laws.OpcodeOfWellFormed
end

