-- ==== Sys2Proof/Tests/Slice0.lean ====
section
/-! SUPPORT. Tests. The expected results are the spec's: its vectors V<n> (spec/95_test_vectors.md), the encodings of its rules, and
its lists of bytes. The witnesses at the end meet the hypotheses of the obligations. -/

namespace Sys2Proof.Tests

open Sys2Proof Sys2Proof.Machine

/-! ## Helpers -/

/-- The memory with the listed bytes stored, in the order of the list, over the unlisted value. -/
def memOf (cells : List (Nat × Byte)) : Memory := cells.foldl (fun m c => m.write c.1 c.2) []

/-- The bytes of a code fragment at consecutive addresses modulo 2^16. -/
def codeCells : Addr → List Byte → List (Nat × Byte)
  | _, [] => []
  | pc, b :: code => (pc.toNat, b) :: codeCells (pc + 1) code

/-- A start state as section 2 of spec/95_test_vectors.md gives it. -/
def start (a x y sp p : Byte) (pc : Addr) (code : List Byte) (cells : List (Nat × Byte)) : State :=
  { State.construct (memOf (codeCells pc code ++ cells)) with a := a, x := x, y := y, sp := sp, p := p, pc := pc }

/-- What a vector shows of a next state: A, X, Y, SP and P, then PC, the cycles, and the bytes at some addresses. -/
def look (addrs : List Addr) : Host.Outcome State Fault Refusal → Option (List Byte × Addr × Nat × List Byte)
  | .next t => some ([t.a, t.x, t.y, t.sp, t.p], t.pc, t.cycles, addrs.map t.readByte)
  | .fault _ => none
  | .refused _ => none

/-! ## Well-formedness: an ill-formed term for each check -/

theorem test_wf_refuses_modes :
    [Instr.adc .imp, .sbc .acc, .and (.zpy 0), .ora (.rel 0), .eor (.ind 0), .cmp (.zpy 0), .lda .imp,
      .asl (.imm 0), .lsr (.absy 0), .rol .imp, .ror (.indx 0), .inc .acc, .dec (.imm 0), .cpx (.zpx 0), .cpy (.absy 0),
      .bit (.imm 0), .ldx (.zpx 0), .ldy (.zpy 0), .sta (.imm 0), .stx (.zpx 0), .sty (.zpy 0), .jmp (.absx 0)].all
      (fun i => !i.wf) = true := by decide

theorem test_wf_refuses_undocumented_terms :
    (Instr.nopUndoc 0xEA .imp).wf = false ∧ (Instr.nopUndoc 0xA9 (.imm 0)).wf = false ∧
      (Instr.nopUndoc 0x02 (.imm 0)).wf = false ∧ (Instr.nopUndoc 0xEB .imp).wf = false := by decide

theorem test_wf_accepts :
    [Instr.adc (.imm 0), .asl .acc, .inc (.zp 0), .cpx (.imm 0), .bit (.abs 0), .ldx (.zpy 0), .ldy (.zpx 0), .sta (.indy 0),
      .stx (.zpy 0), .sty (.zpx 0), .jmp (.ind 0), .nopUndoc 0x02 .imp, .nopUndoc 0xEB (.imm 0), .bcc 0, .brk].all
      (fun i => i.wf) = true := by decide

theorem test_ill_formed_is_refused_by_name :
    exec (.sta (.imm 0x01)) State.reset = .refused .notInCatalog := rfl

/-! ## The catalog (R61, R62, R63) -/

theorem test_catalog_has_256_rows : catalog.length = 256 := by decide +kernel

/-- The NOP rows of the catalog are the 105 bytes of R63 and 0xEA. -/
theorem test_nop_rows_are_the_undocumented_bytes :
    ∀ op : Byte, (catalogRow op).handler = .nop ↔ isUndocumented op = true ∨ op = 0xEA := by decide +kernel

/-- The list has 105 bytes, and 105 bytes are in it. -/
theorem test_undocumented_count :
    undocumentedBytes.length = 105 ∧
      ((List.range 256).filter (fun n => isUndocumented (BitVec.ofNat 8 n))).length = 105 := by decide +kernel

/-! ## Decoding: one written-out word for each constructor, from the "Encoding" line of its own rule -/

theorem test_decode_arithmetic :
    decode [0b01110001, 0x42, 0x99] = .ok (.adc (.indy 0x42), [0x99]) ∧
      decode [0b11111101, 0x34, 0x12] = .ok (.sbc (.absx 0x1234), []) := ⟨rfl, rfl⟩

theorem test_decode_logical :
    decode [0b00100001, 0x42] = .ok (.and (.indx 0x42), []) ∧ decode [0b00011001, 0x34, 0x12] = .ok (.ora (.absy 0x1234), []) ∧
      decode [0b01010101, 0x42] = .ok (.eor (.zpx 0x42), []) := ⟨rfl, rfl, rfl⟩

theorem test_decode_shift_rotate :
    decode [0b00001010] = .ok (.asl .acc, []) ∧ decode [0b01000110, 0x42] = .ok (.lsr (.zp 0x42), []) ∧
      decode [0b00111110, 0x34, 0x12] = .ok (.rol (.absx 0x1234), []) ∧ decode [0b01101010] = .ok (.ror .acc, []) :=
  ⟨rfl, rfl, rfl, rfl⟩

theorem test_decode_incdec :
    decode [0b11101110, 0x34, 0x12] = .ok (.inc (.abs 0x1234), []) ∧ decode [0b11010110, 0x42] = .ok (.dec (.zpx 0x42), []) ∧
      decode [0b11101000] = .ok (.inx, []) ∧ decode [0b11001000] = .ok (.iny, []) ∧ decode [0b11001010] = .ok (.dex, []) ∧
      decode [0b10001000] = .ok (.dey, []) := ⟨rfl, rfl, rfl, rfl, rfl, rfl⟩

theorem test_decode_compare_bit :
    decode [0b11001001, 0x42] = .ok (.cmp (.imm 0x42), []) ∧ decode [0b11101100, 0x34, 0x12] = .ok (.cpx (.abs 0x1234), []) ∧
      decode [0b11000100, 0x42] = .ok (.cpy (.zp 0x42), []) ∧ decode [0b00100100, 0x42] = .ok (.bit (.zp 0x42), []) :=
  ⟨rfl, rfl, rfl, rfl⟩

theorem test_decode_branch :
    decode [0b10010000, 0x80] = .ok (.bcc 0x80, []) ∧ decode [0b10110000, 0x80] = .ok (.bcs 0x80, []) ∧
      decode [0b11110000, 0x80] = .ok (.beq 0x80, []) ∧ decode [0b11010000, 0x80] = .ok (.bne 0x80, []) ∧
      decode [0b00110000, 0x80] = .ok (.bmi 0x80, []) ∧ decode [0b00010000, 0x80] = .ok (.bpl 0x80, []) ∧
      decode [0b01010000, 0x80] = .ok (.bvc 0x80, []) ∧ decode [0b01110000, 0x80] = .ok (.bvs 0x80, []) :=
  ⟨rfl, rfl, rfl, rfl, rfl, rfl, rfl, rfl⟩

theorem test_decode_stack :
    decode [0b01001000] = .ok (.pha, []) ∧ decode [0b00001000] = .ok (.php, []) ∧ decode [0b01101000] = .ok (.pla, []) ∧
      decode [0b00101000] = .ok (.plp, []) ∧ decode [0b00100000, 0x34, 0x12] = .ok (.jsr 0x1234, []) ∧
      decode [0b01100000] = .ok (.rts, []) ∧ decode [0b01000000] = .ok (.rti, []) ∧
      decode [0b00000000, 0xEA] = .ok (.brk, [0xEA]) := ⟨rfl, rfl, rfl, rfl, rfl, rfl, rfl, rfl⟩

theorem test_decode_transfer :
    decode [0b10101010] = .ok (.tax, []) ∧ decode [0b10101000] = .ok (.tay, []) ∧ decode [0b10001010] = .ok (.txa, []) ∧
      decode [0b10011000] = .ok (.tya, []) ∧ decode [0b10111010] = .ok (.tsx, []) ∧ decode [0b10011010] = .ok (.txs, []) :=
  ⟨rfl, rfl, rfl, rfl, rfl, rfl⟩

theorem test_decode_flag_nop :
    decode [0b00111000] = .ok (.sec, []) ∧ decode [0b00011000] = .ok (.clc, []) ∧ decode [0b01111000] = .ok (.sei, []) ∧
      decode [0b01011000] = .ok (.cli, []) ∧ decode [0b11111000] = .ok (.sed, []) ∧ decode [0b11011000] = .ok (.cld, []) ∧
      decode [0b10111000] = .ok (.clv, []) ∧ decode [0b11101010] = .ok (.nop, []) ∧
      decode [0b00011100, 0x34, 0x12] = .ok (.nopUndoc 0x1C (.absx 0x1234), []) :=
  ⟨rfl, rfl, rfl, rfl, rfl, rfl, rfl, rfl, rfl⟩

theorem test_decode_load_store_jump :
    decode [0b10100001, 0x42] = .ok (.lda (.indx 0x42), []) ∧ decode [0b10110110, 0x42] = .ok (.ldx (.zpy 0x42), []) ∧
      decode [0b10111100, 0x34, 0x12] = .ok (.ldy (.absx 0x1234), []) ∧ decode [0b10010001, 0x42] = .ok (.sta (.indy 0x42), []) ∧
      decode [0b10001110, 0x34, 0x12] = .ok (.stx (.abs 0x1234), []) ∧ decode [0b10000100, 0x42] = .ok (.sty (.zp 0x42), []) ∧
      decode [0b01101100, 0x34, 0x12] = .ok (.jmp (.ind 0x1234), []) := ⟨rfl, rfl, rfl, rfl, rfl, rfl, rfl⟩

theorem test_decode_too_short :
    decode [] = .error .noOpcode ∧ decode [0xAD, 0x34] = .error (.missingOperand 0xAD) ∧
      decode [0x90] = .error (.missingOperand 0x90) := ⟨rfl, rfl, rfl⟩

theorem test_encode_writes_words_low_byte_first :
    encode (.lda (.abs 0x1234)) = [0xAD, 0x34, 0x12] ∧ encode (.bne 0xF8) = [0xD0, 0xF8] ∧
      encode (.sta (.imm 0)) = [] := ⟨rfl, rfl, rfl⟩

/-! ## The opcode table's numbering, and the instruction placed where the step fetches -/

theorem test_table_word :
    decodeTableWord 8 0xAD = some (.lda (.abs 0)) ∧ decodeTableWord 24 0x1234AD = some (.lda (.abs 0x1234)) ∧
      decodeTableWord 8 0xFFEA = some .nop := ⟨rfl, rfl, rfl⟩

theorem test_placed_instr_is_fetched :
    ((start 0 0 0 0xFD 0x20 0xFFFF [] []).withFetchWord 16 0x42A9).fetchInstr = .lda (.imm 0x42) ∧
      look [] (step (State.reset.withFetchWord 16 0x42A9)) = some ([0x42, 0, 0, 0xFD, 0x20], 0x0002, 2, []) := by decide

/-! ## Reset and the host -/

/-- V127: the reset vector is read, low byte first. -/
theorem test_reset_v127 :
    (State.construct (memOf [(0xFFFC, 0x34), (0xFFFD, 0x12)])).pc = 0x1234 ∧
      (State.construct (memOf [(0xFFFC, 0x34), (0xFFFD, 0x12)])).sp = 0xFD ∧
      (State.construct (memOf [(0xFFFC, 0x34), (0xFFFD, 0x12)])).p = 0x20 := by decide

/-- V128: reset over an all-zero memory. -/
theorem test_reset_v128 : look [] (.next State.reset) = some ([0, 0, 0, 0xFD, 0x20], 0x0000, 0, []) := by decide

/-- R36, R149: the byte the core stores is the byte it reads and the byte the host reads. -/
theorem test_one_store :
    look [0x0010] (hostStep (.write 0x0010 0x77) State.reset) = some ([0, 0, 0, 0xFD, 0x20], 0, 0, [0x77]) ∧
      hostStep (.write 0x10000 0x77) State.reset = .fault (.boundsViolation 0x10000) ∧
      look [0x0300, 0x0301] (hostStep (.bulkLoad [0xA9, 0x07] 0x0300 2) State.reset) =
        some ([0, 0, 0, 0xFD, 0x20], 0, 0, [0xA9, 0x07]) := ⟨by decide, rfl, by decide⟩

/-- R147: a jump to itself ends a run that stops at a self-loop; V126 gives its cycles. -/
theorem test_run_stops_at_self_loop :
    look [] (Launch.run ⟨memOf (codeCells 0x0200 [0x4C, 0x00, 0x02]), some 0x0200, .atSelfLoop 2⟩) =
      some ([0, 0, 0, 0xFD, 0x20], 0x0200, 3, []) := by decide

/-! ## One step of each instruction: the spec's vectors -/

/-- V30: ADC 0x50+0x50: positive overflow. -/
theorem test_adc_v30 :
    look [] (step (start 0x50 0x00 0x00 0xFD 0x20 0x0200 [0x69, 0x50] [])) =
      some ([0xA0, 0x00, 0x00, 0xFD, 0xE0], 0x0202, 2, []) := by decide

/-- V33: ADC 0xFF+0xFF with C=1. -/
theorem test_adc_v33 :
    look [] (step (start 0xFF 0x00 0x00 0xFD 0x21 0x0200 [0x69, 0xFF] [])) =
      some ([0xFF, 0x00, 0x00, 0xFD, 0xA1], 0x0202, 2, []) := by decide

/-- V36: SBC 0x50-0x30, C=0 (borrow in). -/
theorem test_sbc_v36 :
    look [] (step (start 0x50 0x00 0x00 0xFD 0x20 0x0200 [0xE9, 0x30] [])) =
      some ([0x1F, 0x00, 0x00, 0xFD, 0x21], 0x0202, 2, []) := by decide

/-- V39: SBC 0x7F-0xFF, C=1: overflow. -/
theorem test_sbc_v39 :
    look [] (step (start 0x7F 0x00 0x00 0xFD 0x21 0x0200 [0xE9, 0xFF] [])) =
      some ([0x80, 0x00, 0x00, 0xFD, 0xE0], 0x0202, 2, []) := by decide

/-- V41: AND to zero. -/
theorem test_and_v41 :
    look [] (step (start 0xF0 0x00 0x00 0xFD 0x20 0x0200 [0x29, 0x0F] [])) =
      some ([0x00, 0x00, 0x00, 0xFD, 0x22], 0x0202, 2, []) := by decide

/-- V46: AND absx page cross: 4+1. -/
theorem test_and_v46 :
    look [] (step (start 0xFF 0x20 0x00 0xFD 0x20 0x0200 [0x3D, 0xF0, 0x30] [(0x3110, 0x3C)])) =
      some ([0x3C, 0x20, 0x00, 0xFD, 0x20], 0x0203, 5, []) := by decide

/-- V43: ORA sets N. -/
theorem test_ora_v43 :
    look [] (step (start 0x01 0x00 0x00 0xFD 0x20 0x0200 [0x09, 0x80] [])) =
      some ([0x81, 0x00, 0x00, 0xFD, 0xA0], 0x0202, 2, []) := by decide

/-- V45: EOR 0xFF complements. -/
theorem test_eor_v45 :
    look [] (step (start 0x0F 0x00 0x00 0xFD 0x20 0x0200 [0x49, 0xFF] [])) =
      some ([0xF0, 0x00, 0x00, 0xFD, 0xA0], 0x0202, 2, []) := by decide

/-- V47: ASL A 0x80 -> 0x00, C=1, Z=1. -/
theorem test_asl_v47 :
    look [] (step (start 0x80 0x00 0x00 0xFD 0x20 0x0200 [0x0A] [])) =
      some ([0x00, 0x00, 0x00, 0xFD, 0x23], 0x0201, 2, []) := by decide

/-- V21: ASL absx with page cross: fixed 7. -/
theorem test_asl_v21 :
    look [0x3110] (step (start 0x00 0x20 0x00 0xFD 0x20 0x0200 [0x1E, 0xF0, 0x30] [(0x3110, 0x01)])) =
      some ([0x00, 0x20, 0x00, 0xFD, 0x20], 0x0203, 7, [0x02]) := by decide

/-- V50: LSR A 0xFF -> 0x7F, N=0. -/
theorem test_lsr_v50 :
    look [] (step (start 0xFF 0x00 0x00 0xFD 0xA0 0x0200 [0x4A] [])) =
      some ([0x7F, 0x00, 0x00, 0xFD, 0x21], 0x0201, 2, []) := by decide

/-- V55: LSR absx (no penalty even on cross). -/
theorem test_lsr_v55 :
    look [0x3110] (step (start 0x00 0x20 0x00 0xFD 0x20 0x0200 [0x5E, 0xF0, 0x30] [(0x3110, 0x03)])) =
      some ([0x00, 0x20, 0x00, 0xFD, 0x21], 0x0203, 7, [0x01]) := by decide

/-- V51: ROL A 0x80 with C=1 -> 0x01, C=1. -/
theorem test_rol_v51 :
    look [] (step (start 0x80 0x00 0x00 0xFD 0x21 0x0200 [0x2A] [])) =
      some ([0x01, 0x00, 0x00, 0xFD, 0x21], 0x0201, 2, []) := by decide

/-- V52: ROL A 0x40 with C=0 -> 0x80, N=1. -/
theorem test_rol_v52 :
    look [] (step (start 0x40 0x00 0x00 0xFD 0x20 0x0200 [0x2A] [])) =
      some ([0x80, 0x00, 0x00, 0xFD, 0xA0], 0x0201, 2, []) := by decide

/-- V53: ROR A 0x01 with C=1 -> 0x80, C=1, N=1. -/
theorem test_ror_v53 :
    look [] (step (start 0x01 0x00 0x00 0xFD 0x21 0x0200 [0x6A] [])) =
      some ([0x80, 0x00, 0x00, 0xFD, 0xA1], 0x0201, 2, []) := by decide

/-- V54: ROR zp 0x02 with C=0 -> 0x01. -/
theorem test_ror_v54 :
    look [0x0010] (step (start 0x00 0x00 0x00 0xFD 0x20 0x0200 [0x66, 0x10] [(0x0010, 0x02)])) =
      some ([0x00, 0x00, 0x00, 0xFD, 0x20], 0x0202, 5, [0x01]) := by decide

/-- V56: INC zp 0xFF -> 0x00, C unchanged. -/
theorem test_inc_v56 :
    look [0x0010] (step (start 0x00 0x00 0x00 0xFD 0x21 0x0200 [0xE6, 0x10] [(0x0010, 0xFF)])) =
      some ([0x00, 0x00, 0x00, 0xFD, 0x23], 0x0202, 5, [0x00]) := by decide

/-- V57: INC zp 0x7F -> 0x80. -/
theorem test_inc_v57 :
    look [0x0010] (step (start 0x00 0x00 0x00 0xFD 0x20 0x0200 [0xE6, 0x10] [(0x0010, 0x7F)])) =
      some ([0x00, 0x00, 0x00, 0xFD, 0xA0], 0x0202, 5, [0x80]) := by decide

/-- V58: DEC zp 0x00 -> 0xFF. -/
theorem test_dec_v58 :
    look [0x0010] (step (start 0x00 0x00 0x00 0xFD 0x20 0x0200 [0xC6, 0x10] [(0x0010, 0x00)])) =
      some ([0x00, 0x00, 0x00, 0xFD, 0xA0], 0x0202, 5, [0xFF]) := by decide

/-- V59: DEC absx 0x01 -> 0x00. -/
theorem test_dec_v59 :
    look [0x3005] (step (start 0x00 0x05 0x00 0xFD 0x20 0x0200 [0xDE, 0x00, 0x30] [(0x3005, 0x01)])) =
      some ([0x00, 0x05, 0x00, 0xFD, 0x22], 0x0203, 7, [0x00]) := by decide

/-- V60: INX 0xFF -> 0x00. -/
theorem test_inx_v60 :
    look [] (step (start 0x00 0xFF 0x00 0xFD 0x20 0x0200 [0xE8] [])) =
      some ([0x00, 0x00, 0x00, 0xFD, 0x22], 0x0201, 2, []) := by decide

/-- V61: INY 0x7F -> 0x80. -/
theorem test_iny_v61 :
    look [] (step (start 0x00 0x00 0x7F 0xFD 0x20 0x0200 [0xC8] [])) =
      some ([0x00, 0x00, 0x80, 0xFD, 0xA0], 0x0201, 2, []) := by decide

/-- V62: DEX 0x00 -> 0xFF. -/
theorem test_dex_v62 :
    look [] (step (start 0x00 0x00 0x00 0xFD 0x20 0x0200 [0xCA] [])) =
      some ([0x00, 0xFF, 0x00, 0xFD, 0xA0], 0x0201, 2, []) := by decide

/-- V63: DEY 0x01 -> 0x00. -/
theorem test_dey_v63 :
    look [] (step (start 0x00 0x00 0x01 0xFD 0x20 0x0200 [0x88] [])) =
      some ([0x00, 0x00, 0x00, 0xFD, 0x22], 0x0201, 2, []) := by decide

/-- V66: CMP less (0x40 < 0x41). -/
theorem test_cmp_v66 :
    look [] (step (start 0x40 0x00 0x00 0xFD 0x20 0x0200 [0xC9, 0x41] [])) =
      some ([0x40, 0x00, 0x00, 0xFD, 0xA0], 0x0202, 2, []) := by decide

/-- V20: CMP indy with page cross: 5+1 (D11). -/
theorem test_cmp_v20 :
    look [] (step (start 0x33 0x00 0x10 0xFD 0x20 0x0200 [0xD1, 0x20] [(0x0020, 0xF8), (0x0021, 0x40), (0x4108, 0x33)])) =
      some ([0x33, 0x00, 0x10, 0xFD, 0x23], 0x0202, 6, []) := by decide

/-- V69: CPX imm 0x20 vs 0x10. -/
theorem test_cpx_v69 :
    look [] (step (start 0x00 0x20 0x00 0xFD 0x20 0x0200 [0xE0, 0x10] [])) =
      some ([0x00, 0x20, 0x00, 0xFD, 0x21], 0x0202, 2, []) := by decide

/-- V70: CPY imm 0x00 vs 0x80. -/
theorem test_cpy_v70 :
    look [] (step (start 0x00 0x00 0x00 0xFD 0x20 0x0200 [0xC0, 0x80] [])) =
      some ([0x00, 0x00, 0x00, 0xFD, 0xA0], 0x0202, 2, []) := by decide

/-- V71: BIT zp: N,V from M, Z from A&M. -/
theorem test_bit_v71 :
    look [] (step (start 0x0F 0x00 0x00 0xFD 0x20 0x0200 [0x24, 0x10] [(0x0010, 0xC0)])) =
      some ([0x0F, 0x00, 0x00, 0xFD, 0xE2], 0x0202, 3, []) := by decide

/-- V72: BIT abs: A&M nonzero, M bits 7,6 clear. -/
theorem test_bit_v72 :
    look [] (step (start 0x01 0x00 0x00 0xFD 0xE1 0x0200 [0x2C, 0x00, 0x30] [(0x3000, 0x01)])) =
      some ([0x01, 0x00, 0x00, 0xFD, 0x21], 0x0203, 4, []) := by decide

/-- V74: BCC not taken: 2. -/
theorem test_bcc_v74 :
    look [] (step (start 0x00 0x00 0x00 0xFD 0x21 0x0200 [0x90, 0x10] [])) =
      some ([0x00, 0x00, 0x00, 0xFD, 0x21], 0x0202, 2, []) := by decide

/-- V75: BCC taken, crossing (JEL §8 scenario): 4. -/
theorem test_bcc_v75 :
    look [] (step (start 0x00 0x00 0x00 0xFD 0x20 0x02F0 [0x90, 0x7F] [])) =
      some ([0x00, 0x00, 0x00, 0xFD, 0x20], 0x0371, 4, []) := by decide

/-- V76: BCS to itself (disp 0xFE). -/
theorem test_bcs_v76 :
    look [] (step (start 0x00 0x00 0x00 0xFD 0x21 0x0200 [0xB0, 0xFE] [])) =
      some ([0x00, 0x00, 0x00, 0xFD, 0x21], 0x0200, 3, []) := by decide

/-- V77: BEQ taken with disp 0. -/
theorem test_beq_v77 :
    look [] (step (start 0x00 0x00 0x00 0xFD 0x22 0x0200 [0xF0, 0x00] [])) =
      some ([0x00, 0x00, 0x00, 0xFD, 0x22], 0x0202, 3, []) := by decide

/-- V78: BNE backward into page 0x01. -/
theorem test_bne_v78 :
    look [] (step (start 0x00 0x00 0x00 0xFD 0x20 0x0200 [0xD0, 0xFB] [])) =
      some ([0x00, 0x00, 0x00, 0xFD, 0x20], 0x01FD, 4, []) := by decide

/-- V83: branch page compare uses the next-instruction page (D18): BNE at 0x02FE, disp 0. -/
theorem test_bne_v83 :
    look [] (step (start 0x00 0x00 0x00 0xFD 0x20 0x02FE [0xD0, 0x00] [])) =
      some ([0x00, 0x00, 0x00, 0xFD, 0x20], 0x0300, 3, []) := by decide

/-- V79: BMI not taken. -/
theorem test_bmi_v79 :
    look [] (step (start 0x00 0x00 0x00 0xFD 0x20 0x0200 [0x30, 0x10] [])) =
      some ([0x00, 0x00, 0x00, 0xFD, 0x20], 0x0202, 2, []) := by decide

/-- V80: BPL disp -128. -/
theorem test_bpl_v80 :
    look [] (step (start 0x00 0x00 0x00 0xFD 0x20 0x0200 [0x10, 0x80] [])) =
      some ([0x00, 0x00, 0x00, 0xFD, 0x20], 0x0182, 4, []) := by decide

/-- V81: BVC +127. -/
theorem test_bvc_v81 :
    look [] (step (start 0x00 0x00 0x00 0xFD 0x20 0x0200 [0x50, 0x7F] [])) =
      some ([0x00, 0x00, 0x00, 0xFD, 0x20], 0x0281, 3, []) := by decide

/-- V82: BVS wraps past 0xFFFF. -/
theorem test_bvs_v82 :
    look [] (step (start 0x00 0x00 0x00 0xFD 0x60 0xFFF0 [0x70, 0x20] [])) =
      some ([0x00, 0x00, 0x00, 0xFD, 0x60], 0x0012, 4, []) := by decide

/-- V85: PHA at SP=0x00 wraps. -/
theorem test_pha_v85 :
    look [0x0100] (step (start 0x11 0x00 0x00 0x00 0x20 0x0200 [0x48] [])) =
      some ([0x11, 0x00, 0x00, 0xFF, 0x20], 0x0201, 3, [0x11]) := by decide

/-- V86: PHP pushes P or 0x10. -/
theorem test_php_v86 :
    look [0x01FD] (step (start 0x00 0x00 0x00 0xFD 0xE3 0x0200 [0x08] [])) =
      some ([0x00, 0x00, 0x00, 0xFC, 0xE3], 0x0201, 3, [0xF3]) := by decide

/-- V88: PLA at SP=0xFF reads 0x0100. -/
theorem test_pla_v88 :
    look [] (step (start 0x00 0x00 0x00 0xFF 0x20 0x0200 [0x68] [(0x0100, 0x00)])) =
      some ([0x00, 0x00, 0x00, 0x00, 0x22], 0x0201, 4, []) := by decide

/-- V89: PLP 0x00 -> P=0x20. -/
theorem test_plp_v89 :
    look [] (step (start 0x00 0x00 0x00 0xFC 0xFF 0x0200 [0x28] [(0x01FD, 0x00)])) =
      some ([0x00, 0x00, 0x00, 0xFD, 0x20], 0x0201, 4, []) := by decide

/-- V90: PLP 0xFF -> P=0xFF. -/
theorem test_plp_v90 :
    look [] (step (start 0x00 0x00 0x00 0xFC 0x20 0x0200 [0x28] [(0x01FD, 0xFF)])) =
      some ([0x00, 0x00, 0x00, 0xFD, 0xFF], 0x0201, 4, []) := by decide

/-- V92: JSR at SP=0x00 wraps. -/
theorem test_jsr_v92 :
    look [0x0100, 0x01FF] (step (start 0x00 0x00 0x00 0x00 0x20 0x0200 [0x20, 0x00, 0x30] [])) =
      some ([0x00, 0x00, 0x00, 0xFE, 0x20], 0x3000, 6, [0x02, 0x02]) := by decide

/-- V93: RTS pulls and adds 1. -/
theorem test_rts_v93 :
    look [] (step (start 0x00 0x00 0x00 0xFB 0x20 0x0200 [0x60] [(0x01FC, 0x02), (0x01FD, 0x02)])) =
      some ([0x00, 0x00, 0x00, 0xFD, 0x20], 0x0203, 6, []) := by decide

/-- V94: RTI pulls P then PC (no +1). -/
theorem test_rti_v94 :
    look [] (step (start 0x00 0x00 0x00 0xFA 0x20 0x0200 [0x40] [(0x01FB, 0xC3), (0x01FC, 0x34), (0x01FD, 0x12)])) =
      some ([0x00, 0x00, 0x00, 0xFD, 0xE3], 0x1234, 6, []) := by decide

/-- V95: RTI forces bit 5. -/
theorem test_rti_v95 :
    look [] (step (start 0x00 0x00 0x00 0xFA 0x20 0x0200 [0x40] [(0x01FB, 0x00), (0x01FC, 0x00), (0x01FD, 0x10)])) =
      some ([0x00, 0x00, 0x00, 0xFD, 0x20], 0x1000, 6, []) := by decide

/-- V97: BRK with I already set and D set (D10: D unchanged). -/
theorem test_brk_v97 :
    look [0x01FB] (step (start 0x00 0x00 0x00 0xFD 0x2C 0x0200 [0x00, 0xEA] [(0xFFFE, 0x00), (0xFFFF, 0x80)])) =
      some ([0x00, 0x00, 0x00, 0xFA, 0x2C], 0x8000, 7, [0x3C]) := by decide

/-- V98: BRK at SP=0x01 wraps. -/
theorem test_brk_v98 :
    look [0x0101, 0x0100, 0x01FF] (step (start 0x00 0x00 0x00 0x01 0x20 0x0200 [0x00, 0xEA] [(0xFFFE, 0x34), (0xFFFF, 0x12)])) =
      some ([0x00, 0x00, 0x00, 0xFE, 0x24], 0x1234, 7, [0x02, 0x02, 0x30]) := by decide

/-- V99: TAX. -/
theorem test_tax_v99 :
    look [] (step (start 0x80 0x00 0x00 0xFD 0x20 0x0200 [0xAA] [])) =
      some ([0x80, 0x80, 0x00, 0xFD, 0xA0], 0x0201, 2, []) := by decide

/-- V100: TAY. -/
theorem test_tay_v100 :
    look [] (step (start 0x00 0x00 0x00 0xFD 0xA0 0x0200 [0xA8] [])) =
      some ([0x00, 0x00, 0x00, 0xFD, 0x22], 0x0201, 2, []) := by decide

/-- V101: TXA. -/
theorem test_txa_v101 :
    look [] (step (start 0x55 0x00 0x00 0xFD 0x20 0x0200 [0x8A] [])) =
      some ([0x00, 0x00, 0x00, 0xFD, 0x22], 0x0201, 2, []) := by decide

/-- V102: TYA. -/
theorem test_tya_v102 :
    look [] (step (start 0x00 0x00 0x7F 0xFD 0x20 0x0200 [0x98] [])) =
      some ([0x7F, 0x00, 0x7F, 0xFD, 0x20], 0x0201, 2, []) := by decide

/-- V103: TSX. -/
theorem test_tsx_v103 :
    look [] (step (start 0x00 0x00 0x00 0xFD 0x20 0x0200 [0xBA] [])) =
      some ([0x00, 0xFD, 0x00, 0xFD, 0xA0], 0x0201, 2, []) := by decide

/-- V104: TXS writes no flag. -/
theorem test_txs_v104 :
    look [] (step (start 0x00 0x00 0x00 0xFD 0x20 0x0200 [0x9A] [])) =
      some ([0x00, 0x00, 0x00, 0x00, 0x20], 0x0201, 2, []) := by decide

/-- V105: SEC. -/
theorem test_sec_v105 :
    look [] (step (start 0x00 0x00 0x00 0xFD 0x20 0x0200 [0x38] [])) =
      some ([0x00, 0x00, 0x00, 0xFD, 0x21], 0x0201, 2, []) := by decide

/-- V106: CLC. -/
theorem test_clc_v106 :
    look [] (step (start 0x00 0x00 0x00 0xFD 0xFF 0x0200 [0x18] [])) =
      some ([0x00, 0x00, 0x00, 0xFD, 0xFE], 0x0201, 2, []) := by decide

/-- V107: SEI. -/
theorem test_sei_v107 :
    look [] (step (start 0x00 0x00 0x00 0xFD 0x20 0x0200 [0x78] [])) =
      some ([0x00, 0x00, 0x00, 0xFD, 0x24], 0x0201, 2, []) := by decide

/-- V108: CLI. -/
theorem test_cli_v108 :
    look [] (step (start 0x00 0x00 0x00 0xFD 0xFF 0x0200 [0x58] [])) =
      some ([0x00, 0x00, 0x00, 0xFD, 0xFB], 0x0201, 2, []) := by decide

/-- V109: SED. -/
theorem test_sed_v109 :
    look [] (step (start 0x00 0x00 0x00 0xFD 0x20 0x0200 [0xF8] [])) =
      some ([0x00, 0x00, 0x00, 0xFD, 0x28], 0x0201, 2, []) := by decide

/-- V110: CLD. -/
theorem test_cld_v110 :
    look [] (step (start 0x00 0x00 0x00 0xFD 0xFF 0x0200 [0xD8] [])) =
      some ([0x00, 0x00, 0x00, 0xFD, 0xF7], 0x0201, 2, []) := by decide

/-- V111: CLV. -/
theorem test_clv_v111 :
    look [] (step (start 0x00 0x00 0x00 0xFD 0xFF 0x0200 [0xB8] [])) =
      some ([0x00, 0x00, 0x00, 0xFD, 0xBF], 0x0201, 2, []) := by decide

/-- V16: PC wraps: NOP at 0xFFFF leaves PC=0x0000. -/
theorem test_nop_v16 :
    look [] (step (start 0x00 0x00 0x00 0xFD 0x20 0xFFFF [0xEA] [])) =
      some ([0x00, 0x00, 0x00, 0xFD, 0x20], 0x0000, 2, []) := by decide

/-- V112: NOP. -/
theorem test_nop_v112 :
    look [] (step (start 0x12 0x00 0x00 0xFD 0xE3 0x0200 [0xEA] [])) =
      some ([0x12, 0x00, 0x00, 0xFD, 0xE3], 0x0201, 2, []) := by decide

/-- V22: undocumented 0x1C (absx NOP in subset) with cross: 4+1. -/
theorem test_nopUndoc_v22 :
    look [] (step (start 0x00 0x20 0x00 0xFD 0x20 0x0200 [0x1C, 0xF0, 0x30] [])) =
      some ([0x00, 0x20, 0x00, 0xFD, 0x20], 0x0203, 5, []) := by decide

/-- V24: undocumented 0x03 (indx): 2 bytes, 8 cycles, no write. -/
theorem test_nopUndoc_v24 :
    look [0x4000] (step (start 0x00 0x01 0x00 0xFD 0x20 0x0200 [0x03, 0x10] [(0x0011, 0x00), (0x0012, 0x40), (0x4000, 0x12)])) =
      some ([0x00, 0x01, 0x00, 0xFD, 0x20], 0x0202, 8, [0x12]) := by decide

/-- V8: absx sum wraps at 0x10000 (D2), counts as a crossing. -/
theorem test_lda_v8 :
    look [] (step (start 0x00 0x20 0x00 0xFD 0x20 0x0200 [0xBD, 0xF0, 0xFF] [(0x0010, 0x44)])) =
      some ([0x44, 0x20, 0x00, 0xFD, 0x20], 0x0203, 5, []) := by decide

/-- V10: indx: pointer at (0xFE+1)=0xFF wraps, high byte from 0x00. -/
theorem test_lda_v10 :
    look [] (step (start 0x00 0x01 0x00 0xFD 0x20 0x0200 [0xA1, 0xFE] [(0x00FF, 0x34), (0x0000, 0x12), (0x1234, 0x99)])) =
      some ([0x99, 0x01, 0x00, 0xFD, 0xA0], 0x0202, 6, []) := by decide

/-- V4: zpy wraps in page zero (0xFF+0x02 -> 0x01). -/
theorem test_ldx_v4 :
    look [] (step (start 0x00 0x00 0x02 0xFD 0x20 0x0200 [0xB6, 0xFF] [(0x0001, 0x80)])) =
      some ([0x00, 0x80, 0x02, 0xFD, 0xA0], 0x0202, 4, []) := by decide

/-- V118: LDX absy cross. -/
theorem test_ldx_v118 :
    look [] (step (start 0x00 0x00 0x01 0xFD 0x20 0x0200 [0xBE, 0xFF, 0x20] [(0x2100, 0x07)])) =
      some ([0x00, 0x07, 0x01, 0xFD, 0x20], 0x0203, 5, []) := by decide

/-- V119: LDY #0x80. -/
theorem test_ldy_v119 :
    look [] (step (start 0x00 0x00 0x00 0xFD 0x20 0x0200 [0xA0, 0x80] [])) =
      some ([0x00, 0x00, 0x80, 0xFD, 0xA0], 0x0202, 2, []) := by decide

/-- V120: LDY absx cross. -/
theorem test_ldy_v120 :
    look [] (step (start 0x00 0x01 0x00 0xFD 0x20 0x0200 [0xBC, 0xFF, 0x20] [(0x2100, 0x07)])) =
      some ([0x00, 0x01, 0x07, 0xFD, 0x20], 0x0203, 5, []) := by decide

/-- V18: STA absx with page cross: fixed 5 (no pen_op). -/
theorem test_sta_v18 :
    look [0x3110] (step (start 0x42 0x20 0x00 0xFD 0x20 0x0200 [0x9D, 0xF0, 0x30] [])) =
      some ([0x42, 0x20, 0x00, 0xFD, 0x20], 0x0203, 5, [0x42]) := by decide

/-- V122: STA indy cross: 6. -/
theorem test_sta_v122 :
    look [0x4108] (step (start 0xAB 0x00 0x10 0xFD 0x20 0x0200 [0x91, 0x20] [(0x0020, 0xF8), (0x0021, 0x40)])) =
      some ([0xAB, 0x00, 0x10, 0xFD, 0x20], 0x0202, 6, [0xAB]) := by decide

/-- V123: STX zpy wraps. -/
theorem test_stx_v123 :
    look [0x0001] (step (start 0x00 0x99 0x02 0xFD 0x20 0x0200 [0x96, 0xFF] [])) =
      some ([0x00, 0x99, 0x02, 0xFD, 0x20], 0x0202, 4, [0x99]) := by decide

/-- V124: STY abs. -/
theorem test_sty_v124 :
    look [0x3000] (step (start 0x00 0x00 0x11 0xFD 0x20 0x0200 [0x8C, 0x00, 0x30] [])) =
      some ([0x00, 0x00, 0x11, 0xFD, 0x20], 0x0203, 4, [0x11]) := by decide

/-- V14: ind (JMP) page bug: high byte from 0x3000, not 0x3100. -/
theorem test_jmp_v14 :
    look [] (step (start 0x00 0x00 0x00 0xFD 0x20 0x0200 [0x6C, 0xFF, 0x30] [(0x30FF, 0x80), (0x3000, 0x50), (0x3100, 0x40)])) =
      some ([0x00, 0x00, 0x00, 0xFD, 0x20], 0x5080, 5, []) := by decide

/-- V125: JMP abs (JEL §8 scenario). -/
theorem test_jmp_v125 :
    look [] (step (start 0x00 0x00 0x00 0xFD 0x20 0x0200 [0x4C, 0x34, 0x12] [])) =
      some ([0x00, 0x00, 0x00, 0xFD, 0x20], 0x1234, 3, []) := by decide
/-! ## Witnesses: a state and operands that meet the hypotheses of each obligation that has any -/

/-- `LDA $30F0,X` with X = 0x20: indexing crosses a page (V7). -/
def crossing : State := start 0 0x20 0 0xFD 0x20 0x0200 [0xBD, 0xF0, 0x30] [(0x3110, 0x80)]

/-- `STA $0010` with A = 0x42. -/
def storing : State := start 0x42 0 0 0xFD 0x20 0x0200 [0x85, 0x10] []

theorem witness_DecodeOfEncode :
    (Instr.adc (.absx 0xFFFF)).wf = true ∧ (Instr.nopUndoc 0xFF (.absx 0)).wf = true ∧ Instr.brk.wf = true := by decide

theorem witness_EncodeOfDecode :
    decode [0xBD, 0xFF, 0xFF, 0x12] = .ok (.lda (.absx 0xFFFF), [0x12]) ∧ decode [0x00] = .ok (.brk, []) := ⟨rfl, rfl⟩

theorem witness_DecodeFollowsTheCatalog :
    (catalogRow 0xBD).mode.width ≤ [0xFF#8, 0xFF].length ∧ [0xFF#8].length < (catalogRow 0xBD).mode.width := by decide

theorem witness_UndocumentedBytesAreNoOps :
    0x02#8 ∈ undocumentedBytes ∧ 0xFF#8 ∈ undocumentedBytes ∧ 0xEA#8 ∉ undocumentedBytes ∧ 0x00#8 ∉ undocumentedBytes := by
  decide

/-- The instruction's bytes wrap past 0xFFFF (V17). -/
theorem witness_StepRunsTheDecodedInstr :
    let s := start 0 0 0 0xFD 0x20 0xFFFE [0xAD, 0x34, 0x12] [(0x1234, 0x42)]
    decode [s.readByte s.pc, s.readByte (s.pc + 1), s.readByte (s.pc + 2)] = .ok (.lda (.abs 0x1234), []) := rfl

theorem witness_WellFormedInstrCompletes :
    (Instr.lda (.imm 0xFF)).wf = true ∧ (Instr.sta (.imm 0xFF)).wf = false := by decide

theorem witness_StepCountsOneInstr : ∃ t, step (start 0 0 0 0xFD 0x20 0xFFFF [0xEA] []) = .next t := ⟨_, rfl⟩

/-- A step of two cycles and one of eight. -/
theorem witness_StepChargesTwoToEightCycles :
    (∃ t, step (start 0 0 0 0xFD 0x20 0xFFFF [0xEA] []) = .next t ∧ t.cycles = 2) ∧
      (∃ t, step (start 0 0 0 0xFD 0x20 0x0200 [0x03, 0x10] []) = .next t ∧ t.cycles = 8) :=
  ⟨⟨_, rfl, by decide⟩, ⟨_, rfl, by decide⟩⟩

/-- With both penalty indicators set, and with one of them clear. -/
theorem witness_CyclesAreBaseAndPenalty :
    ((Instr.lda (.absx 0x30F0)).opcode = some 0xBD ∧ (catalogRow 0xBD).mode ≠ .rel ∧
        ∃ t, exec (.lda (.absx 0x30F0)) crossing = .next t ∧ t.penAddr = true ∧ t.penOp = true) ∧
      ((Instr.sta (.absx 0x30F0)).opcode = some 0x9D ∧ (catalogRow 0x9D).mode ≠ .rel ∧
        ∃ t, exec (.sta (.absx 0x30F0)) crossing = .next t ∧ t.penAddr = true ∧ t.penOp = false) :=
  ⟨⟨rfl, by decide, _, rfl, by decide, by decide⟩, ⟨rfl, by decide, _, rfl, by decide, by decide⟩⟩

/-- A handler with `pen_op`, an undocumented byte with it, and one without. -/
theorem witness_TimingSensitiveHandlers :
    (∃ t, exec (.lda (.absx 0x30F0)) crossing = .next t ∧ t.penOp = true) ∧
      (∃ t, exec (.nopUndoc 0xFC (.absx 0x30F0)) crossing = .next t ∧ t.penOp = true) ∧
      (∃ t, exec (.nopUndoc 0x9C (.absx 0x30F0)) crossing = .next t ∧ t.penOp = false) :=
  ⟨⟨_, rfl, by decide⟩, ⟨_, rfl, by decide⟩, ⟨_, rfl, by decide⟩⟩

theorem witness_OtherInstrsAreSequential :
    (Instr.lda (.absx 0x30F0)).handler ∉ pcWriters ∧ ∃ t, exec (.lda (.absx 0x30F0)) crossing = .next t :=
  ⟨by decide, _, rfl⟩

theorem witness_OnlyResolversWriteTheScratch : ∃ t, exec (.lda (.absx 0x30F0)) crossing = .next t := ⟨_, rfl⟩

theorem witness_StepKeepsTheInvariant : storing.Inv ∧ ∃ t, step storing = .next t := ⟨by decide, _, rfl⟩

theorem witness_ConstructMeetsTheInvariant : (memOf [(0, 0x01), (0xFFFF, 0xFF)]).wf = true := by decide

theorem witness_FlagsChangeOnlyUnderTheirWriters :
    storing.flag .u = true ∧ (Instr.sec).handler ∉ flagWriters .z ∧ ∃ t, exec .sec storing = .next t :=
  ⟨by decide, by decide, _, rfl⟩

/-- A register no form writes, and the accumulator under a shift of memory. -/
theorem witness_RegsChangeOnlyUnderTheirWriters :
    (Instr.lda (.imm 0xFF)).handler ∉ regWriters .x ∧ (∃ t, exec (.lda (.imm 0xFF)) storing = .next t) ∧
      (Instr.asl (.zp 0xFF)).handler ∈ [Handler.asl, .lsr, .rol, .ror] ∧ (Instr.asl (.zp 0xFF)).operand.mode ≠ .acc ∧
      ∃ t, exec (.asl (.zp 0xFF)) storing = .next t :=
  ⟨by decide, ⟨_, rfl⟩, by decide, by decide, _, rfl⟩

/-- A stored byte, and the last of the bytes BRK pushes. -/
theorem witness_MemoryChangesOnlyWhereWritten :
    (∃ t, exec (.sta (.zp 0x10)) storing = .next t ∧ t.readByte 0x0010 ≠ storing.readByte 0x0010) ∧
      (∃ t, exec .brk storing = .next t ∧ t.readByte 0x01FB ≠ storing.readByte 0x01FB) :=
  ⟨⟨_, rfl, by decide⟩, ⟨_, rfl, by decide⟩⟩

theorem witness_InterruptDecimalBreakFlagsAreInert :
    Flag.d ∈ [Flag.i, .d, .b] ∧
      (Instr.adc (.imm 0x09)).handler ∉ [Handler.sei, .cli, .sed, .cld, .php, .plp, .rti, .brk] ∧
      ∃ t, exec (.adc (.imm 0x09)) storing = .next t := ⟨by decide, by decide, _, rfl⟩

theorem witness_CountersAffectNothing : ∃ t, step storing = .next t := ⟨_, rfl⟩

theorem witness_ScratchCannotBeObserved :
    SameButScratch storing { storing with ea := 0xFFFF, eaAcc := true, rel := 0x0001, penAddr := true, penOp := true } ∧
      ∃ t, step storing = .next t :=
  ⟨⟨rfl, rfl, rfl, rfl, rfl, rfl, rfl, rfl, rfl⟩, _, rfl⟩

/-- Each of the three resolvers with a crossing, and one of the others. -/
theorem witness_PageCrossingIndicator :
    let s := start 0 0x20 0x10 0xFD 0x20 0x0200 [] [(0x0020, 0xF8), (0x0021, 0x40)]
    s.penAddr = false ∧ (s.resolve (.absx 0xFFF0)).penAddr = true ∧ (s.resolve (.absy 0x30F0)).penAddr = true ∧
      (s.resolve (.indy 0x20)).penAddr = true ∧ (s.resolve (.absx 0x3000)).penAddr = false ∧
      (Operand.zpx 0xF0).mode ∉ [Mode.absx, .absy, .indy] := by decide

/-- The membership in the list of forms: its first and last form (the ADC list stands for the lists of eight forms). -/
theorem witness_AdcAddsWithCarry :
    ((Operand.imm 0xFF).mode, 0x69#8) ∈ [(Mode.imm, 0x69#8), (.zp, 0x65#8), (.zpx, 0x75#8), (.abs, 0x6D#8), (.absx, 0x7D#8),
      (.absy, 0x79#8), (.indx, 0x61#8), (.indy, 0x71#8)] ∧
    ((Operand.indy 0xFF).mode, 0x71#8) ∈ [(Mode.imm, 0x69#8), (.zp, 0x65#8), (.zpx, 0x75#8), (.abs, 0x6D#8), (.absx, 0x7D#8),
      (.absy, 0x79#8), (.indx, 0x61#8), (.indy, 0x71#8)] := by decide

theorem witness_SbcSubtractsWithBorrow :
    ((Operand.imm 0xFF).mode, 0xE9#8) ∈ [(Mode.imm, 0xE9#8), (.zp, 0xE5#8), (.zpx, 0xF5#8), (.abs, 0xED#8), (.absx, 0xFD#8),
      (.absy, 0xF9#8), (.indx, 0xE1#8), (.indy, 0xF1#8)] := by decide

/-- A form of each of AND, ORA and EOR. -/
theorem witness_LogicalInstrsCombineIntoA :
    ((Operand.imm 0xFF).mode, 0x29#8) ∈ [(Mode.imm, 0x29#8), (.zp, 0x25#8), (.zpx, 0x35#8), (.abs, 0x2D#8), (.absx, 0x3D#8),
      (.absy, 0x39#8), (.indx, 0x21#8), (.indy, 0x31#8)] ∧
    ((Operand.absy 0xFFFF).mode, 0x19#8) ∈ [(Mode.imm, 0x09#8), (.zp, 0x05#8), (.zpx, 0x15#8), (.abs, 0x0D#8), (.absx, 0x1D#8),
      (.absy, 0x19#8), (.indx, 0x01#8), (.indy, 0x11#8)] ∧
    ((Operand.indy 0xFF).mode, 0x51#8) ∈ [(Mode.imm, 0x49#8), (.zp, 0x45#8), (.zpx, 0x55#8), (.abs, 0x4D#8), (.absx, 0x5D#8),
      (.absy, 0x59#8), (.indx, 0x41#8), (.indy, 0x51#8)] := by decide

/-- The accumulator form and a memory form of ASL and of ROL. -/
theorem witness_LeftShiftsAndRotates :
    (Operand.acc.mode, 0x0A#8) ∈ [(Mode.acc, 0x0A#8), (.zp, 0x06#8), (.zpx, 0x16#8), (.abs, 0x0E#8), (.absx, 0x1E#8)] ∧
    ((Operand.absx 0xFFFF).mode, 0x1E#8) ∈ [(Mode.acc, 0x0A#8), (.zp, 0x06#8), (.zpx, 0x16#8), (.abs, 0x0E#8), (.absx, 0x1E#8)] ∧
    (Operand.acc.mode, 0x2A#8) ∈ [(Mode.acc, 0x2A#8), (.zp, 0x26#8), (.zpx, 0x36#8), (.abs, 0x2E#8), (.absx, 0x3E#8)] ∧
    ((Operand.absx 0xFFFF).mode, 0x3E#8) ∈ [(Mode.acc, 0x2A#8), (.zp, 0x26#8), (.zpx, 0x36#8), (.abs, 0x2E#8), (.absx, 0x3E#8)] := by
  decide

/-- The accumulator form and a memory form of LSR and of ROR. -/
theorem witness_RightShiftsAndRotates :
    (Operand.acc.mode, 0x4A#8) ∈ [(Mode.acc, 0x4A#8), (.zp, 0x46#8), (.zpx, 0x56#8), (.abs, 0x4E#8), (.absx, 0x5E#8)] ∧
    ((Operand.absx 0xFFFF).mode, 0x5E#8) ∈ [(Mode.acc, 0x4A#8), (.zp, 0x46#8), (.zpx, 0x56#8), (.abs, 0x4E#8), (.absx, 0x5E#8)] ∧
    (Operand.acc.mode, 0x6A#8) ∈ [(Mode.acc, 0x6A#8), (.zp, 0x66#8), (.zpx, 0x76#8), (.abs, 0x6E#8), (.absx, 0x7E#8)] ∧
    ((Operand.absx 0xFFFF).mode, 0x7E#8) ∈ [(Mode.acc, 0x6A#8), (.zp, 0x66#8), (.zpx, 0x76#8), (.abs, 0x6E#8), (.absx, 0x7E#8)] := by
  decide

/-- A form of INC and of DEC. -/
theorem witness_MemoryIncrementAndDecrement :
    ((Operand.zp 0xFF).mode, 0xE6#8) ∈ [(Mode.zp, 0xE6#8), (.zpx, 0xF6#8), (.abs, 0xEE#8), (.absx, 0xFE#8)] ∧
    ((Operand.absx 0xFFFF).mode, 0xDE#8) ∈ [(Mode.zp, 0xC6#8), (.zpx, 0xD6#8), (.abs, 0xCE#8), (.absx, 0xDE#8)] := by decide

theorem witness_CmpComparesA :
    ((Operand.indy 0xFF).mode, 0xD1#8) ∈ [(Mode.imm, 0xC9#8), (.zp, 0xC5#8), (.zpx, 0xD5#8), (.abs, 0xCD#8), (.absx, 0xDD#8),
      (.absy, 0xD9#8), (.indx, 0xC1#8), (.indy, 0xD1#8)] := by decide

/-- A form of CPX and of CPY. -/
theorem witness_CpxCpyCompareTheIndex :
    ((Operand.imm 0xFF).mode, 0xE0#8) ∈ [(Mode.imm, 0xE0#8), (.zp, 0xE4#8), (.abs, 0xEC#8)] ∧
    ((Operand.abs 0xFFFF).mode, 0xCC#8) ∈ [(Mode.imm, 0xC0#8), (.zp, 0xC4#8), (.abs, 0xCC#8)] := by decide

theorem witness_BitTestsTheOperand : ((Operand.abs 0xFFFF).mode, 0x2C#8) ∈ [(Mode.zp, 0x24#8), (.abs, 0x2C#8)] := by decide

/-- A branch that is not taken, one that is taken into another page, and one into the page of the next instruction, which is not
that of its own opcode (V75, V83). -/
theorem witness_BranchesTestOneFlag :
    (!(start 0 0 0 0xFD 0x21 0x02F0 [] []).flag .c) = false ∧ (!(start 0 0 0 0xFD 0x20 0x02F0 [] []).flag .c) = true ∧
      (BitVec.ofInt 16 ((0x02F0#16 + 2#16).toNat + (0x7F#8).toInt)).toNat / 256 ≠ (0x02F0#16 + 2#16).toNat / 256 ∧
      (BitVec.ofInt 16 ((0x02FE#16 + 2#16).toNat + (0x00#8).toInt)).toNat / 256 = (0x02FE#16 + 2#16).toNat / 256 := by decide

/-- The stack pointer wraps between the two pushes (V92). -/
theorem witness_JsrThenRtsReturnsPastTheJsr : ∃ t, exec (.jsr 0x3000) { storing with sp := 0 } = .next t := ⟨_, rfl⟩

/-- The stack pointer wraps between the pushes (V98). -/
theorem witness_BrkThenRtiComesBack : ∃ t, exec .brk { storing with sp := 1 } = .next t := ⟨_, rfl⟩

/-- A byte with the penalty and one without. -/
theorem witness_UndocumentedNopsDoNothing :
    (0xFC#8 ∈ undocumentedBytes ∧ (Operand.absx 0x30F0).mode = (catalogRow 0xFC).mode) ∧
      (0x02#8 ∈ undocumentedBytes ∧ Operand.imp.mode = (catalogRow 0x02).mode) := by decide

/-- A form of each of LDA, LDX and LDY. -/
theorem witness_LoadsFillTheirRegister :
    ((Operand.indx 0xFF).mode, 0xA1#8) ∈ [(Mode.imm, 0xA9#8), (.zp, 0xA5#8), (.zpx, 0xB5#8), (.abs, 0xAD#8), (.absx, 0xBD#8),
      (.absy, 0xB9#8), (.indx, 0xA1#8), (.indy, 0xB1#8)] ∧
    ((Operand.zpy 0xFF).mode, 0xB6#8) ∈ [(Mode.imm, 0xA2#8), (.zp, 0xA6#8), (.zpy, 0xB6#8), (.abs, 0xAE#8), (.absy, 0xBE#8)] ∧
    ((Operand.absx 0xFFFF).mode, 0xBC#8) ∈ [(Mode.imm, 0xA0#8), (.zp, 0xA4#8), (.zpx, 0xB4#8), (.abs, 0xAC#8), (.absx, 0xBC#8)] := by
  decide

/-- A form of each of STA, STX and STY. -/
theorem witness_StoresWriteTheirRegister :
    ((Operand.indy 0xFF).mode, 0x91#8) ∈ [(Mode.zp, 0x85#8), (.zpx, 0x95#8), (.abs, 0x8D#8), (.absx, 0x9D#8), (.absy, 0x99#8),
      (.indx, 0x81#8), (.indy, 0x91#8)] ∧
    ((Operand.zpy 0xFF).mode, 0x96#8) ∈ [(Mode.zp, 0x86#8), (.zpy, 0x96#8), (.abs, 0x8E#8)] ∧
    ((Operand.zpx 0xFF).mode, 0x94#8) ∈ [(Mode.zp, 0x84#8), (.zpx, 0x94#8), (.abs, 0x8C#8)] := by decide

/-- STA stores over the byte the next step fetches. -/
theorem witness_StoreIsSeenByTheNextFetch :
    let s := start 0xE8 0 0 0xFD 0x20 0x0200 [0x8D, 0x03, 0x02] []
    ∃ t, exec (.sta (.abs 0x0203)) s = .next t ∧ s.beginStep.effAddr (.abs 0x0203) = t.pc ∧ t.fetchInstr = .inx :=
  ⟨_, rfl, by decide, by decide⟩

theorem witness_HostWriteIsBounded : 65535 < 65536 ∧ 65536 ≤ 65536 := by decide

end Sys2Proof.Tests
end

section
/-! PROOFS. What a handler writes, said once for all instructions: an equation for each handler in the shared operations, then one
frame lemma for each part of the state. The statements of spec/10_state.md about one instruction or one step are read off them. -/

namespace Sys2Proof.Machine

/-! ## The operations whose frame Laws/ leaves to be completed -/

section
variable (s : State) (v : Byte) (cond : Bool)

/-- `Put` leaves the scratch registers alone (R39, R54). -/
@[simp] theorem State.put_scratch : (s.put v).ea = s.ea ∧ (s.put v).eaAcc = s.eaAcc ∧ (s.put v).rel = s.rel := by
  unfold State.put
  split <;> exact ⟨rfl, rfl, rfl⟩

@[simp] theorem State.put_flag (f : Flag) : (s.put v).flag f = s.flag f := by
  simp only [State.flag, s.put_frame v]

@[simp] theorem State.branch_flag (f : Flag) : (s.branch cond).flag f = s.flag f := by
  simp only [State.flag, s.branch_frame cond]

/-- Where the operand is a memory byte, `Put` writes no register; in any case it writes none but the accumulator (R39). -/
theorem State.put_reg {g : Reg} (h : s.eaAcc = false ∨ g ≠ .a) : (s.put v).reg g = s.reg g := by
  cases g with
  | a => rw [State.reg, State.reg, State.put_a, if_neg (by simpa using h)]
  | x | y | sp => simp only [State.reg, s.put_frame v]

@[simp] theorem State.branch_reg (g : Reg) : (s.branch cond).reg g = s.reg g := by
  cases g <;> simp only [State.reg, s.branch_frame cond]

@[simp] theorem State.setZN_reg (g : Reg) : (s.setZN v).reg g = s.reg g := by cases g <;> rfl

@[simp] theorem State.setShiftFlags_reg (g : Reg) : (s.setShiftFlags cond v).reg g = s.reg g := by cases g <;> rfl

/-- A branch charges at most two cycles beyond the base cycles (R92). -/
theorem State.branch_cycles : s.cycles ≤ (s.branch cond).cycles ∧ (s.branch cond).cycles ≤ s.cycles + 2 := by
  cases cond with
  | false => simp
  | true =>
    rw [State.branch_true, State.addCycles_cycles, State.setPC_cycles]
    split <;> omega

end

/-! ## Every handler in the shared operations -/

section
variable (r : State)

@[simp] theorem handlerOf_adc (o : Operand) : handlerOf (.adc o) r = (r.addWithCarry (r.operandValue o)).setPenOp := rfl
@[simp] theorem handlerOf_sbc (o : Operand) :
    handlerOf (.sbc o) r = (r.addWithCarry (r.operandValue o ^^^ 0xFF#8)).setPenOp := rfl
@[simp] theorem handlerOf_and (o : Operand) :
    handlerOf (.and o) r = ((r.setZN (r.a &&& r.operandValue o)).setA
      (r.a &&& r.operandValue o)).setPenOp := rfl
@[simp] theorem handlerOf_ora (o : Operand) :
    handlerOf (.ora o) r = ((r.setZN (r.a ||| r.operandValue o)).setA
      (r.a ||| r.operandValue o)).setPenOp := rfl
@[simp] theorem handlerOf_eor (o : Operand) :
    handlerOf (.eor o) r = ((r.setZN (r.a ^^^ r.operandValue o)).setA
      (r.a ^^^ r.operandValue o)).setPenOp := rfl
@[simp] theorem handlerOf_asl (o : Operand) :
    handlerOf (.asl o) r = (r.setShiftFlags ((r.operandValue o).getLsbD 7) (aslResult (r.operandValue o))).put
      (aslResult (r.operandValue o)) := rfl
@[simp] theorem handlerOf_lsr (o : Operand) :
    handlerOf (.lsr o) r = (r.setShiftFlags ((r.operandValue o).getLsbD 0) (lsrResult (r.operandValue o))).put
      (lsrResult (r.operandValue o)) := rfl
@[simp] theorem handlerOf_rol (o : Operand) :
    handlerOf (.rol o) r = (r.setShiftFlags ((r.operandValue o).getLsbD 7) (rolResult (r.operandValue o) (r.flag .c))).put
      (rolResult (r.operandValue o) (r.flag .c)) := rfl
@[simp] theorem handlerOf_ror (o : Operand) :
    handlerOf (.ror o) r = (r.setShiftFlags ((r.operandValue o).getLsbD 0) (rorResult (r.operandValue o) (r.flag .c))).put
      (rorResult (r.operandValue o) (r.flag .c)) := rfl
@[simp] theorem handlerOf_inc (o : Operand) :
    handlerOf (.inc o) r = (r.setZN (r.operandValue o + 1)).put (r.operandValue o + 1) := rfl
@[simp] theorem handlerOf_dec (o : Operand) :
    handlerOf (.dec o) r = (r.setZN (r.operandValue o - 1)).put (r.operandValue o - 1) := rfl
@[simp] theorem handlerOf_inx : handlerOf .inx r = (r.setX (r.x + 1)).setZN (r.x + 1) := rfl
@[simp] theorem handlerOf_iny : handlerOf .iny r = (r.setY (r.y + 1)).setZN (r.y + 1) := rfl
@[simp] theorem handlerOf_dex : handlerOf .dex r = (r.setX (r.x - 1)).setZN (r.x - 1) := rfl
@[simp] theorem handlerOf_dey : handlerOf .dey r = (r.setY (r.y - 1)).setZN (r.y - 1) := rfl
@[simp] theorem handlerOf_cmp (o : Operand) : handlerOf (.cmp o) r = (r.compare r.a (r.operandValue o)).setPenOp := rfl
@[simp] theorem handlerOf_cpx (o : Operand) : handlerOf (.cpx o) r = r.compare r.x (r.operandValue o) := rfl
@[simp] theorem handlerOf_cpy (o : Operand) : handlerOf (.cpy o) r = r.compare r.y (r.operandValue o) := rfl
@[simp] theorem handlerOf_bit (o : Operand) : handlerOf (.bit o) r = r.bitTest (r.operandValue o) := rfl
@[simp] theorem handlerOf_bcc (d : Byte) : handlerOf (.bcc d) r = r.branch (!r.flag .c) := rfl
@[simp] theorem handlerOf_bcs (d : Byte) : handlerOf (.bcs d) r = r.branch (r.flag .c) := rfl
@[simp] theorem handlerOf_beq (d : Byte) : handlerOf (.beq d) r = r.branch (r.flag .z) := rfl
@[simp] theorem handlerOf_bne (d : Byte) : handlerOf (.bne d) r = r.branch (!r.flag .z) := rfl
@[simp] theorem handlerOf_bmi (d : Byte) : handlerOf (.bmi d) r = r.branch (r.flag .n) := rfl
@[simp] theorem handlerOf_bpl (d : Byte) : handlerOf (.bpl d) r = r.branch (!r.flag .n) := rfl
@[simp] theorem handlerOf_bvc (d : Byte) : handlerOf (.bvc d) r = r.branch (!r.flag .v) := rfl
@[simp] theorem handlerOf_bvs (d : Byte) : handlerOf (.bvs d) r = r.branch (r.flag .v) := rfl
@[simp] theorem handlerOf_pha : handlerOf .pha r = r.push8 r.a := rfl
@[simp] theorem handlerOf_php : handlerOf .php r = r.push8 r.pushedP := rfl
@[simp] theorem handlerOf_pla : handlerOf .pla r = (r.pull8.setA r.pulled8).setZN r.pulled8 := rfl
@[simp] theorem handlerOf_plp : handlerOf .plp r = r.pull8.setP r.pulled8 := rfl
@[simp] theorem handlerOf_jsr (target : Addr) : handlerOf (.jsr target) r = (r.push16 (r.pc - 1)).setPC r.ea := rfl
@[simp] theorem handlerOf_rts : handlerOf .rts r = r.pull16.setPC (r.pulled16 + 1) := rfl
@[simp] theorem handlerOf_rti : handlerOf .rti r = r.returnFromInterrupt := rfl
@[simp] theorem handlerOf_brk : handlerOf .brk r = r.takeInterrupt := rfl
@[simp] theorem handlerOf_tax : handlerOf .tax r = (r.setX r.a).setZN r.a := rfl
@[simp] theorem handlerOf_tay : handlerOf .tay r = (r.setY r.a).setZN r.a := rfl
@[simp] theorem handlerOf_txa : handlerOf .txa r = (r.setA r.x).setZN r.x := rfl
@[simp] theorem handlerOf_tya : handlerOf .tya r = (r.setA r.y).setZN r.y := rfl
@[simp] theorem handlerOf_tsx : handlerOf .tsx r = (r.setX r.sp).setZN r.sp := rfl
@[simp] theorem handlerOf_txs : handlerOf .txs r = r.setSP r.x := rfl
@[simp] theorem handlerOf_sec : handlerOf .sec r = r.setFlag .c true := rfl
@[simp] theorem handlerOf_clc : handlerOf .clc r = r.setFlag .c false := rfl
@[simp] theorem handlerOf_sei : handlerOf .sei r = r.setFlag .i true := rfl
@[simp] theorem handlerOf_cli : handlerOf .cli r = r.setFlag .i false := rfl
@[simp] theorem handlerOf_sed : handlerOf .sed r = r.setFlag .d true := rfl
@[simp] theorem handlerOf_cld : handlerOf .cld r = r.setFlag .d false := rfl
@[simp] theorem handlerOf_clv : handlerOf .clv r = r.setFlag .v false := rfl
@[simp] theorem handlerOf_nop : handlerOf .nop r = r := rfl
@[simp] theorem handlerOf_nopUndoc (op : Byte) (o : Operand) :
    handlerOf (.nopUndoc op o) r = if nopPenaltyBytes.contains op then r.setPenOp else r := rfl
@[simp] theorem handlerOf_lda (o : Operand) :
    handlerOf (.lda o) r = ((r.setA (r.operandValue o)).setZN (r.operandValue o)).setPenOp := rfl
@[simp] theorem handlerOf_ldx (o : Operand) :
    handlerOf (.ldx o) r = ((r.setX (r.operandValue o)).setZN (r.operandValue o)).setPenOp := rfl
@[simp] theorem handlerOf_ldy (o : Operand) :
    handlerOf (.ldy o) r = ((r.setY (r.operandValue o)).setZN (r.operandValue o)).setPenOp := rfl
@[simp] theorem handlerOf_sta (o : Operand) : handlerOf (.sta o) r = r.put r.a := rfl
@[simp] theorem handlerOf_stx (o : Operand) : handlerOf (.stx o) r = r.put r.x := rfl
@[simp] theorem handlerOf_sty (o : Operand) : handlerOf (.sty o) r = r.put r.y := rfl
@[simp] theorem handlerOf_jmp (o : Operand) : handlerOf (.jmp o) r = r.setPC r.ea := rfl
end

/-! ## The catalog rows of the handlers -/

/-- Every row charges two to eight cycles; eight only for no-ops that are never late, and two for every branch (R61). -/
theorem baseCycles_bounds (op : Byte) :
    2 ≤ (catalogRow op).baseCycles ∧ (catalogRow op).baseCycles ≤ 8 ∧
      ((catalogRow op).baseCycles = 8 → (catalogRow op).handler = .nop ∧ nopPenaltyBytes.contains op = false) ∧
      ((catalogRow op).mode = .rel → (catalogRow op).baseCycles = 2) := by
  revert op; decide

/-- The handlers that read or write the operand's place by `Operand()` or `Put` (R38, R39). -/
def operandHandlers : List Handler :=
  [.adc, .sbc, .and, .ora, .eor, .asl, .lsr, .rol, .ror, .inc, .dec, .cmp, .cpx, .cpy, .bit, .lda, .ldx, .ldy, .sta, .stx, .sty]

/-- The handlers that take an address only, in every form. -/
def addressHandlers : List Handler := [.inc, .dec, .sta, .stx, .sty, .jsr, .jmp]

/-- A handler that uses its operand has one: no implied and no relative form (R61). -/
theorem mode_of_operandHandler {i : Instr} {op : Byte} (hop : i.opcode = some op) (hi : i.handler ∈ operandHandlers) :
    i.operand.mode ∉ [Mode.imp, .rel] := by
  have table : ∀ op, (catalogRow op).handler ∈ operandHandlers → (catalogRow op).mode ∉ [Mode.imp, .rel] := by decide
  obtain ⟨hhandler, hmode⟩ := row_of_opcode hop
  exact hmode ▸ table op (hhandler ▸ hi)

/-- A handler that takes an address only has no accumulator form either (R61). -/
theorem mode_of_addressHandler {i : Instr} {op : Byte} (hop : i.opcode = some op) (hi : i.handler ∈ addressHandlers) :
    i.operand.mode ∉ [Mode.imp, .acc, .rel] := by
  have table : ∀ op, (catalogRow op).handler ∈ addressHandlers → (catalogRow op).mode ∉ [Mode.imp, .acc, .rel] := by
    decide
  obtain ⟨hhandler, hmode⟩ := row_of_opcode hop
  exact hmode ▸ table op (hhandler ▸ hi)

/-! ## What a handler leaves unchanged -/

section
variable (i : Instr) (r : State)

/-- No handler writes the scratch registers of the resolvers (R54) or the instruction counter (R23). -/
theorem handlerOf_scratch :
    (handlerOf i r).ea = r.ea ∧ (handlerOf i r).eaAcc = r.eaAcc ∧ (handlerOf i r).rel = r.rel ∧
      (handlerOf i r).penAddr = r.penAddr ∧ (handlerOf i r).instret = r.instret := by
  cases i
  case nopUndoc => rw [handlerOf_nopUndoc]; split <;> simp
  all_goals simp [State.put_frame, State.branch_frame]

/-- Only a branch charges cycles in its handler, two at the most (R67, R92). -/
theorem handlerOf_cycles :
    r.cycles ≤ (handlerOf i r).cycles ∧ (handlerOf i r).cycles ≤ r.cycles + 2 ∧
      (i.operand.mode ≠ .rel → (handlerOf i r).cycles = r.cycles) := by
  cases i
  case bcc | bcs | beq | bne | bmi | bpl | bvc | bvs =>
    simpa [Instr.operand, Operand.mode] using r.branch_cycles _
  case nopUndoc => rw [handlerOf_nopUndoc]; split <;> simp
  all_goals simp [State.put_frame]

variable {i r}

/-- Outside the jumps, returns, BRK and the branches no handler writes `PC` (R10). -/
theorem handlerOf_pc (h : i.handler ∉ pcWriters) : (handlerOf i r).pc = r.pc := by
  cases i
  case bcc | bcs | beq | bne | bmi | bpl | bvc | bvs | jsr | rts | rti | brk | jmp =>
    simp [Instr.handler, pcWriters] at h
  case nopUndoc => rw [handlerOf_nopUndoc]; split <;> simp
  all_goals simp [State.put_frame]

/-- A handler changes only the flags it is listed for as a writer; the constant flag is 1 before and after (R13, R17). -/
theorem handlerOf_flag {f : Flag} (hu : r.flag .u = true) (h : i.handler ∉ flagWriters f) :
    (handlerOf i r).flag f = r.flag f := by
  cases i
  case nopUndoc => rw [handlerOf_nopUndoc]; split <;> simp
  case bcc | bcs | beq | bne | bmi | bpl | bvc | bvs | pha | php | jsr | rts | txs | nop | sta | stx | sty | jmp => simp
  all_goals cases f <;> simp_all [Instr.handler, flagWriters]

/-- A shift or rotate of a memory byte writes no register (R8). -/
theorem handlerOf_reg_of_memory_shift (hi : i.handler ∈ [Handler.asl, .lsr, .rol, .ror]) (hmem : r.eaAcc = false)
    (g : Reg) : (handlerOf i r).reg g = r.reg g := by
  cases i
  case asl | lsr | rol | ror => simp [State.put_reg, hmem]
  all_goals simp [Instr.handler] at hi

/-- A handler changes only the registers it is listed for as a writer, where a store reaches no accumulator (R8, R11). -/
theorem handlerOf_reg {g : Reg} (haddr : i.handler ∈ addressHandlers → r.eaAcc = false) (h : i.handler ∉ regWriters g) :
    (handlerOf i r).reg g = r.reg g := by
  cases i
  case bcc | bcs | beq | bne | bmi | bpl | bvc | bvs => simp
  case sta | stx | sty | inc | dec =>
    have hmem : r.eaAcc = false := haddr (by simp [Instr.handler, addressHandlers])
    simp [State.put_reg, hmem]
  case asl | lsr | rol | ror =>
    have hg : g ≠ .a := by rintro rfl; simp [Instr.handler, regWriters] at h
    simp [State.put_reg _ _ (.inr hg)]
  case nopUndoc => rw [handlerOf_nopUndoc]; split <;> cases g <;> simp [State.reg]
  all_goals cases g <;> simp_all [Instr.handler, regWriters, State.reg]

end

end Sys2Proof.Machine
end

section
/-! PROOFS. The invariant of a step, and the statements of spec/10_state.md that follow from the frames of the handlers. -/

namespace Sys2Proof.Machine

/-- Every byte a handler writes goes to an address of the store, so the memory list stays canonical (R29, R32). -/
theorem handlerOf_wf (i : Instr) {r : State} (h : r.mem.wf = true) : (handlerOf i r).mem.wf = true := by
  cases i
  case asl | lsr | rol | ror | inc | dec | sta | stx | sty => exact State.wf_put _ _ (by simpa using h)
  case pha | php => exact r.wf_push8 _ h
  case jsr => exact r.wf_push16 _ h
  case brk => exact r.wf_takeInterrupt h
  case nopUndoc => rw [handlerOf_nopUndoc]; split <;> simpa using h
  all_goals simpa [State.branch_frame] using h

/-- The phases of a step around a handler keep the invariant if the handler's own writes do (R13, R65). -/
theorem exec_inv {i : Instr} {s t : State} (hs : s.Inv) (h : exec i s = .next t) : t.Inv := by
  obtain ⟨hwf, hu⟩ := hs
  obtain ⟨op, -, rfl⟩ := exec_eq_next h
  constructor
  · rw [State.account_mem]
    exact handlerOf_wf i (by simpa using hwf)
  · rw [State.account_flag, handlerOf_flag (f := .u) (by simpa using hu) List.not_mem_nil]
    simpa using hu

/-- Settles O15: a step is `exec` of the fetched instruction, which keeps the invariant. -/
theorem stepKeepsTheInvariant : Obligations.StepKeepsTheInvariant :=
  fun _ _ hs h => exec_inv hs h

/-- Settles O9: the accounting phase alone writes the counter, and adds 1. -/
theorem stepCountsOneInstr : Obligations.StepCountsOneInstr := by
  intro s t h
  obtain ⟨op, -, rfl⟩ := exec_eq_next h
  simp [handlerOf_scratch]

/-- A no-op that no penalty byte encodes does nothing between the resolver and the accounting (R122, R123). -/
theorem handlerOf_nop_of_not_penalty {i : Instr} {op : Byte} (hop : i.opcode = some op)
    (hnop : (catalogRow op).handler = .nop) (hpen : nopPenaltyBytes.contains op = false) (r : State) :
    handlerOf i r = r := by
  rw [(row_of_opcode hop).1] at hnop
  cases i <;> simp only [Instr.handler, reduceCtorEq] at hnop
  case nop => exact handlerOf_nop r
  case nopUndoc b o =>
    simp only [Instr.opcode, Option.ite_none_right_eq_some, Option.some.injEq] at hop
    rw [handlerOf_nopUndoc, hop.2, hpen, if_neg Bool.false_ne_true]

/-- The cycles an instruction charges (R22, R61, R67): a row of eight cycles takes no penalty, and a branch has a row of two. -/
theorem exec_cycles_bounds {i : Instr} {s t : State} (h : exec i s = .next t) :
    s.cycles + 2 ≤ t.cycles ∧ t.cycles ≤ s.cycles + 8 := by
  obtain ⟨op, hop, rfl⟩ := exec_eq_next h
  obtain ⟨hmin, hmax, hlate, hbranch⟩ := baseCycles_bounds op
  rw [(row_of_opcode hop).2] at hbranch
  obtain ⟨hc, hc2, hsame⟩ := handlerOf_cycles i (s.beginStep.resolve i.operand)
  simp only [State.resolve_cycles, State.beginStep_cycles] at hc hc2 hsame
  have hpen := Bool.toNat_le ((handlerOf i (s.beginStep.resolve i.operand)).penAddr &&
    (handlerOf i (s.beginStep.resolve i.operand)).penOp)
  rw [State.account_cycles]
  by_cases h8 : (catalogRow op).baseCycles = 8
  · obtain ⟨hnop, hbyte⟩ := hlate h8
    simp [handlerOf_nop_of_not_penalty hop hnop hbyte, h8]
  · by_cases hrel : i.operand.mode = .rel
    · have := hbranch hrel
      omega
    · have := hsame hrel
      omega

/-- Settles O10, by the cycles of the fetched instruction. -/
theorem stepChargesTwoToEightCycles : Obligations.StepChargesTwoToEightCycles :=
  fun _ _ h => exec_cycles_bounds h

/-- Settles O13: the fetch and the resolver move `PC` over the instruction's bytes, and its handler leaves it there. -/
theorem otherInstrsAreSequential : Obligations.OtherInstrsAreSequential := by
  intro i s t h hi
  obtain ⟨op, hop, rfl⟩ := exec_eq_next h
  have hlen : (encode i).length = 1 + i.operand.width := by
    rw [encode_of_opcode hop, List.length_cons, length_bytes, Nat.add_comm]
  rw [State.account_pc, handlerOf_pc hi, State.resolve_pc, State.beginStep_pc, hlen, BitVec.ofNat_add,
    ← BitVec.add_assoc]
  rfl

/-- Settles O14: neither the handler nor the accounting writes the scratch registers of the resolvers. -/
theorem onlyResolversWriteTheScratch : Obligations.OnlyResolversWriteTheScratch := by
  intro i s t h
  obtain ⟨op, -, rfl⟩ := exec_eq_next h
  obtain ⟨hea, hacc, hrel, hpen, -⟩ := handlerOf_scratch i (s.beginStep.resolve i.operand)
  exact ⟨hea, hacc, hrel, hpen⟩

/-- Settles O17: of the phases only the handler writes flags, and only those it is listed for. -/
theorem flagsChangeOnlyUnderTheirWriters : Obligations.FlagsChangeOnlyUnderTheirWriters := by
  intro i s t f hu h hi
  obtain ⟨op, -, rfl⟩ := exec_eq_next h
  rw [State.account_flag, handlerOf_flag (by simpa using hu) hi, State.resolve_flag, State.beginStep_flag]

section
variable (s : State) (g : Reg)

@[simp] theorem State.beginStep_reg : s.beginStep.reg g = s.reg g := by cases g <;> rfl

@[simp] theorem State.resolve_reg (o : Operand) : (s.resolve o).reg g = s.reg g := by cases g <;> simp [State.reg]

@[simp] theorem State.account_reg (n : Nat) : (s.account n).reg g = s.reg g := by cases g <;> rfl

end

/-- Settles O18: of the phases only the handler writes the data registers and `SP`, and only those it is listed for. -/
theorem regsChangeOnlyUnderTheirWriters : Obligations.RegsChangeOnlyUnderTheirWriters := by
  intro i s t g h
  obtain ⟨op, hop, rfl⟩ := exec_eq_next h
  have resolved : ((s.beginStep.resolve i.operand).reg g) = s.reg g := by simp
  rw [State.account_reg, ← resolved]
  constructor
  · intro hi
    exact handlerOf_reg (fun hk => (State.resolve_ea _ _ (mode_of_addressHandler hop hk)).2) hi
  · intro hshift hacc
    have hmode := mode_of_operandHandler hop
      (by revert hshift; simp only [operandHandlers, List.mem_cons]; tauto)
    exact handlerOf_reg_of_memory_shift hshift (State.resolve_ea _ _ (by simp_all)).2 g

/-- Settles O57: the fields of `State.construct`, the vector read as a number. -/
theorem constructionResetsTheCore : Obligations.ConstructionResetsTheCore := by
  intro mem0
  refine ⟨?_, rfl, rfl, rfl, rfl, rfl, rfl, rfl, rfl, rfl, rfl, rfl, rfl, rfl⟩
  have hvector : (State.construct mem0).pc = word (mem0.read 0xFFFD) (mem0.read 0xFFFC) := rfl
  rw [hvector, ← word_toNat, BitVec.ofNat_toNat, BitVec.setWidth_eq]

/-- Settles O16: `State.construct` takes the memory as given, and the constant flag is a bit of `RESET_P`. -/
theorem constructMeetsTheInvariant : Obligations.ConstructMeetsTheInvariant := by
  have hu : flagOf Config.resetP .u = true := by decide
  have hinv : ∀ mem0 : Memory, mem0.wf = true → (State.construct mem0).Inv := fun _ h => ⟨h, hu⟩
  exact ⟨hinv, hinv [] rfl⟩

end Sys2Proof.Machine
end

section
/-! PROOFS. Non-interference (spec/10_state.md R14 to R16, R24): an update of the state that no instruction looks at commutes with
every handler. Said once for every such update, and used for the flags I, D and B and for the scratch registers. -/

namespace Sys2Proof.Machine

/-! ## Updates that commute with the shared operations -/

/-- The handlers that read or write `P` beyond the flags C, Z, V and N (R17, R102, R104, R107, R108). -/
def statusHandlers : List Handler := [.sei, .cli, .sed, .cld, .php, .plp, .rti, .brk]

/-- The update leaves alone what every handler reads, the scratch registers aside, and commutes with what the handlers outside
`statusHandlers` write. -/
structure Inert (u : State → State) : Prop where
  a (s : State) : (u s).a = s.a
  x (s : State) : (u s).x = s.x
  y (s : State) : (u s).y = s.y
  sp (s : State) : (u s).sp = s.sp
  pc (s : State) : (u s).pc = s.pc
  readByte (s : State) (b : Addr) : (u s).readByte b = s.readByte b
  flag (s : State) {f : Flag} (hf : f ∈ [Flag.c, .z, .v, .n]) : (u s).flag f = s.flag f
  setA (s : State) (v : Byte) : (u s).setA v = u (s.setA v)
  setX (s : State) (v : Byte) : (u s).setX v = u (s.setX v)
  setY (s : State) (v : Byte) : (u s).setY v = u (s.setY v)
  setSP (s : State) (v : Byte) : (u s).setSP v = u (s.setSP v)
  setPC (s : State) (v : Addr) : (u s).setPC v = u (s.setPC v)
  writeByte (s : State) (b : Addr) (v : Byte) : (u s).writeByte b v = u (s.writeByte b v)
  setFlag (s : State) {f : Flag} (cond : Bool) (hf : f ∈ [Flag.c, .z, .v, .n]) :
    (u s).setFlag f cond = u (s.setFlag f cond)
  setPenOp (s : State) : (u s).setPenOp = u s.setPenOp
  addCycles (s : State) (n : Nat) : (u s).addCycles n = u (s.addCycles n)

/-- The update leaves the operand's place alone: the sentinel, and the effective address where the operand is a memory byte. -/
def SamePlace (u : State → State) (s : State) : Prop :=
  (u s).eaAcc = s.eaAcc ∧ (s.eaAcc = false → (u s).ea = s.ea)

/-- The update leaves alone the scratch registers that the resolver of `o` writes (R41 to R52). -/
structure KeepsResolved (u : State → State) (o : Operand) (r : State) : Prop where
  place : o.mode ∉ [Mode.imp, .rel] → SamePlace u r
  address : o.mode ∉ [Mode.imp, .acc, .rel] → (u r).ea = r.ea
  displacement : o.mode = .rel → (u r).rel = r.rel

namespace Inert

variable {u : State → State} (hu : Inert u) (s : State)
include hu

theorem setZN (v : Byte) : (u s).setZN v = u (s.setZN v) := by
  simp [State.setZN, hu.setFlag]

theorem setShiftFlags (out : Bool) (v : Byte) : (u s).setShiftFlags out v = u (s.setShiftFlags out v) := by
  simp [State.setShiftFlags, hu.setFlag, hu.setZN]

theorem compare (r m : Byte) : (u s).compare r m = u (s.compare r m) := by
  simp [State.compare, hu.setFlag]

theorem bitTest (m : Byte) : (u s).bitTest m = u (s.bitTest m) := by
  simp [State.bitTest, hu.setFlag, hu.a]

theorem addWithCarry (m : Byte) : (u s).addWithCarry m = u (s.addWithCarry m) := by
  have hsum : (u s).wideSum m = s.wideSum m := by simp [State.wideSum, State.carry, hu.a, hu.flag]
  have asOps : ∀ t : State, t.addWithCarry m = (((t.setFlag .c ((t.wideSum m).testBit 8)).setZN
      (BitVec.ofNat 8 (t.wideSum m))).setFlag .v (overflow t.a m (BitVec.ofNat 8 (t.wideSum m)))).setA
      (BitVec.ofNat 8 (t.wideSum m)) := fun _ => rfl
  rw [asOps, asOps, hsum, hu.a, hu.setFlag _ _ (by decide), hu.setZN, hu.setFlag _ _ (by decide), hu.setA]

theorem push8 (v : Byte) : (u s).push8 v = u (s.push8 v) := by
  simp [State.push8, hu.writeByte, hu.setSP, hu.sp]

theorem push16 (v : Addr) : (u s).push16 v = u (s.push16 v) := by
  simp [State.push16, hu.writeByte, hu.setSP, hu.sp]

theorem pulled8 : (u s).pulled8 = s.pulled8 := by
  simp [State.pulled8, hu.readByte, hu.sp]

theorem pull8 : (u s).pull8 = u s.pull8 := by
  simp [State.pull8, hu.setSP, hu.sp]

theorem pulled16 : (u s).pulled16 = s.pulled16 := by
  simp [State.pulled16, hu.readByte, hu.sp]

theorem pull16 : (u s).pull16 = u s.pull16 := by
  simp [State.pull16, hu.setSP, hu.sp]

variable {s}

theorem branch (hrel : (u s).rel = s.rel) (cond : Bool) : (u s).branch cond = u (s.branch cond) := by
  cases cond with
  | false => rfl
  | true => rw [State.branch_true, State.branch_true, hrel, hu.pc, hu.setPC, hu.addCycles]

theorem operandValue (hs : SamePlace u s) (o : Operand) : (u s).operandValue o = s.operandValue o := by
  obtain ⟨hacc, hea⟩ := hs
  cases o <;> simp only [State.operandValue, hacc, hu.a, hu.readByte] <;> split <;> simp_all

theorem put (hs : SamePlace u s) (v : Byte) : (u s).put v = u (s.put v) := by
  obtain ⟨hacc, hea⟩ := hs
  unfold State.put
  rw [hacc]
  split
  · exact hu.setA s v
  · next h => rw [hea (by simpa using h), hu.writeByte]

theorem samePlace_setZN (hs : SamePlace u s) (v : Byte) : SamePlace u (s.setZN v) := by
  simpa [SamePlace, ← hu.setZN] using hs

theorem samePlace_setShiftFlags (hs : SamePlace u s) (out : Bool) (v : Byte) :
    SamePlace u (s.setShiftFlags out v) := by
  simpa [SamePlace, ← hu.setShiftFlags] using hs

end Inert

/-- An inert update before a handler is one after it. -/
theorem handlerOf_inert {u : State → State} (hu : Inert u) {i : Instr} {op : Byte} {r : State}
    (hop : i.opcode = some op) (hk : KeepsResolved u i.operand r) (hi : i.handler ∉ statusHandlers) :
    handlerOf i (u r) = u (handlerOf i r) := by
  have hplace := fun h => hk.place (mode_of_operandHandler hop h)
  have haddress := fun h => hk.address (mode_of_addressHandler hop h)
  cases i
  case sei | cli | sed | cld | php | plp | rti | brk => simp [Instr.handler, statusHandlers] at hi
  case bcc | bcs | beq | bne | bmi | bpl | bvc | bvs => simp [hu.flag, hu.branch (hk.displacement rfl)]
  case jsr | jmp =>
    have hea : (u r).ea = r.ea := haddress (by simp [Instr.handler, addressHandlers])
    simp [hea, hu.pc, hu.push16, hu.setPC]
  case adc | sbc | and | ora | eor | cmp | cpx | cpy | bit | lda | ldx | ldy =>
    have hs : SamePlace u r := hplace (by simp [Instr.handler, operandHandlers])
    simp [hu.operandValue hs, hu.a, hu.x, hu.y, hu.addWithCarry, hu.compare, hu.bitTest, hu.setZN, hu.setA, hu.setX,
      hu.setY, hu.setPenOp]
  case asl | lsr | rol | ror =>
    have hs : SamePlace u r := hplace (by simp [Instr.handler, operandHandlers])
    simp [hu.operandValue hs, hu.flag, hu.setShiftFlags, hu.put (hu.samePlace_setShiftFlags hs _ _)]
  case inc | dec =>
    have hs : SamePlace u r := hplace (by simp [Instr.handler, operandHandlers])
    simp [hu.operandValue hs, hu.setZN, hu.put (hu.samePlace_setZN hs _)]
  case sta | stx | sty =>
    have hs : SamePlace u r := hplace (by simp [Instr.handler, operandHandlers])
    simp [hu.a, hu.x, hu.y, hu.put hs]
  case pha | pla | rts =>
    simp [hu.a, hu.push8, hu.pull8, hu.pulled8, hu.pull16, hu.pulled16, hu.setA, hu.setZN, hu.setPC]
  case inx | iny | dex | dey | tax | tay | txa | tya | tsx | txs =>
    simp [hu.a, hu.x, hu.y, hu.sp, hu.setA, hu.setX, hu.setY, hu.setSP, hu.setZN]
  case sec | clc | clv => simp [hu.setFlag]
  case nop => rfl
  case nopUndoc =>
    rw [handlerOf_nopUndoc, handlerOf_nopUndoc]
    split
    · exact hu.setPenOp r
    · rfl

/-! ## The flags I, D and B -/

section
variable (s : State) (f : Flag) (v : Bool)

@[simp] theorem State.flag_withFlag (g : Flag) : (s.withFlag f v).flag g = if g = f then v else s.flag g := by
  cases v
  · by_cases h : g = f <;> simp [State.withFlag, State.flag, flagOf_and_not_mask, h]
  · by_cases h : g = f <;> simp [State.withFlag, State.flag, flagOf_or_mask, h]

theorem State.setFlag_withFlag {g : Flag} (cond : Bool) (hfg : f ≠ g) (hu : f ≠ .u) :
    (s.withFlag f v).setFlag g cond = (s.setFlag g cond).withFlag f v := by
  have hp : ((s.withFlag f v).setFlag g cond).p = ((s.setFlag g cond).withFlag f v).p := by
    refine flagOf_ext fun k => ?_
    change ((s.withFlag f v).setFlag g cond).flag k = ((s.setFlag g cond).withFlag f v).flag k
    rw [State.flag_setFlag, State.flag_withFlag, State.flag_withFlag, State.flag_setFlag]
    by_cases hk : k = f
    · subst hk
      simp [hfg, hu]
    · simp [hk]
  exact congrArg (fun p => { s with p := p }) hp

variable {f}

theorem inert_withFlag (hf : f ∈ [Flag.i, .d, .b]) : Inert (fun s => s.withFlag f v) := by
  have hne : ∀ {g : Flag}, g ∈ [Flag.c, .z, .v, .n] → f ≠ g := by
    rintro g hg rfl
    revert hf hg
    cases f <;> decide
  have hu : f ≠ .u := by rintro rfl; simp at hf
  constructor
  case flag =>
    intro s g hg
    rw [State.flag_withFlag, if_neg (hne hg).symm]
  case setFlag => exact fun s g cond hg => s.setFlag_withFlag f v cond (hne hg) hu
  all_goals intros; rfl

theorem State.resolve_withFlag (o : Operand) : (s.withFlag f v).resolve o = (s.resolve o).withFlag f v := by
  cases o <;> rfl

end

/-- Settles O20: changing the flag is inert, and commutes with the fetch, the resolvers and the accounting. -/
theorem interruptDecimalBreakFlagsAreInert : Obligations.InterruptDecimalBreakFlagsAreInert := by
  intro i s t f v hf hi h
  obtain ⟨op, hop, rfl⟩ := exec_eq_next h
  have hk : KeepsResolved (fun s => s.withFlag f v) i.operand (s.beginStep.resolve i.operand) :=
    ⟨fun _ => ⟨rfl, fun _ => rfl⟩, fun _ => rfl, fun _ => rfl⟩
  have hbegin : (s.withFlag f v).beginStep = s.beginStep.withFlag f v := rfl
  rw [exec_of_opcode _ hop, hbegin, State.resolve_withFlag, handlerOf_inert (inert_withFlag v hf) hop hk hi]
  rfl

/-! ## The scratch registers -/

/-- The state with other values of the scratch registers that a resolver may leave as they were. -/
def State.withScratch (s : State) (ea : Addr) (eaAcc : Bool) (rel : Addr) : State :=
  { s with ea := ea, eaAcc := eaAcc, rel := rel }

section
variable (ea : Addr) (eaAcc : Bool) (rel : Addr)

theorem inert_withScratch : Inert (fun s => s.withScratch ea eaAcc rel) := by
  constructor <;> intros <;> rfl

/-- The handlers read of the scratch registers only what the resolver of their operand has written. -/
theorem handlerOf_withScratch {i : Instr} {op : Byte} {r : State} (hop : i.opcode = some op)
    (hk : KeepsResolved (fun s => s.withScratch ea eaAcc rel) i.operand r) :
    handlerOf i (r.withScratch ea eaAcc rel) = (handlerOf i r).withScratch ea eaAcc rel := by
  by_cases hi : i.handler ∈ statusHandlers
  · cases i
    case sei | cli | sed | cld | php | plp | rti | brk => rfl
    all_goals simp [Instr.handler, statusHandlers] at hi
  · exact handlerOf_inert (inert_withScratch ea eaAcc rel) hop hk hi

end

/-- States that differ at most in the scratch registers are resolved to states that differ at most in those the resolver does not
write; `pen_addr` and `pen_op` are cleared by the fetch (R65). -/
theorem resolve_of_sameButScratch {s₁ s₂ : State} (h : SameButScratch s₁ s₂) (o : Operand) :
    ∃ ea eaAcc rel, s₂.beginStep.resolve o = (s₁.beginStep.resolve o).withScratch ea eaAcc rel ∧
      KeepsResolved (fun s => s.withScratch ea eaAcc rel) o (s₁.beginStep.resolve o) := by
  have hbegin : s₂.beginStep = s₁.beginStep.withScratch s₂.ea s₂.eaAcc s₂.rel := by
    obtain ⟨ha, hx, hy, hsp, hp, hpc, hc, hi, hm⟩ := h
    simp only [State.beginStep, State.withScratch, ha, hx, hy, hsp, hp, hpc, hc, hi, hm]
  rw [hbegin]
  cases o with
  | imp => exact ⟨s₂.ea, s₂.eaAcc, s₂.rel, rfl, by simp [Operand.mode], by simp [Operand.mode], by simp [Operand.mode]⟩
  | acc => exact ⟨s₂.ea, true, s₂.rel, rfl, fun _ => ⟨rfl, by simp⟩, by simp [Operand.mode], by simp [Operand.mode]⟩
  | rel d =>
    exact ⟨s₂.ea, s₂.eaAcc, sext16 d, rfl, by simp [Operand.mode], by simp [Operand.mode], fun _ => rfl⟩
  | imm | zp | zpx | zpy | abs | absx | absy | ind | indx | indy =>
    exact ⟨_, false, s₂.rel, rfl, fun _ => ⟨rfl, fun _ => rfl⟩, fun _ => rfl, by simp [Operand.mode]⟩

/-- Settles O22: both states fetch one instruction, and the scratch registers in which they still differ after its resolver are
inert. -/
theorem scratchCannotBeObserved : Obligations.ScratchCannotBeObserved := by
  intro s₁ s₂ t₁ hs h
  obtain ⟨op, hop, rfl⟩ := exec_eq_next h
  obtain ⟨ea, eaAcc, rel, hresolve, hk⟩ := resolve_of_sameButScratch hs s₁.fetchInstr.operand
  have hfetch : s₂.fetchInstr = s₁.fetchInstr := by
    obtain ⟨-, -, -, -, -, hpc, -, -, hm⟩ := hs
    simp only [State.fetchInstr, State.readByte, hpc, hm]
  refine ⟨_, exec_of_opcode s₂ (hfetch ▸ hop), ?_⟩
  rw [hfetch, hresolve, handlerOf_withScratch _ _ _ hop hk]
  exact ⟨rfl, rfl, rfl, rfl, rfl, rfl, rfl, rfl, rfl⟩

end Sys2Proof.Machine
end

section
/-! PROOFS. The addressing modes of spec/20_memory.md: the byte-order helpers read as numbers, what a resolver writes said once for
the modes that compute an address and once more for those that index past page zero, and the statements of that section. -/

namespace Sys2Proof

/-! ## The byte-order helpers as numbers -/

theorem zext16_eq_ofNat (b : Byte) : zext16 b = BitVec.ofNat 16 b.toNat := (BitVec.ofNat_toNat 16 b).symm

theorem word_eq_ofNat (h l : Byte) : word h l = BitVec.ofNat 16 (h.toNat * 256 + l.toNat) := by
  rw [← word_toNat, BitVec.ofNat_toNat, BitVec.setWidth_eq]

theorem zext16_add_eq_ofNat (b i : Byte) : zext16 (b + i) = BitVec.ofNat 16 ((b.toNat + i.toNat) % 256) := by
  rw [zext16_eq_ofNat, BitVec.toNat_add]

theorem add_zext16_eq_ofNat (a : Addr) (i : Byte) : a + zext16 i = BitVec.ofNat 16 (a.toNat + i.toNat) := by
  rw [BitVec.ofNat_add, BitVec.ofNat_toNat, BitVec.ofNat_toNat, BitVec.setWidth_eq]
  rfl

/-- Two addresses are in different pages where their quotients by the page size differ. -/
theorem page_bne_page (a b : Addr) : (page a != page b) = decide (a.toNat / 256 ≠ b.toNat / 256) := by
  rw [Bool.eq_iff_iff]
  simp [page, ← BitVec.toNat_inj, hi_toNat]

end Sys2Proof

namespace Sys2Proof.Machine

/-- The second pointer byte of the indirect mode: the next address, and at the end of a page the page's first (R50). -/
theorem samePageNext_eq_ofNat (ptr : Addr) :
    samePageNext ptr = BitVec.ofNat 16 (if ptr.toNat % 256 = 255 then ptr.toNat - 255 else ptr.toNat + 1) := by
  have hlow : (lo ptr + 1).toNat = (ptr.toNat % 256 + 1) % 256 := by
    rw [BitVec.toNat_add, lo_toNat]
    rfl
  rw [samePageNext, word_eq_ofNat, hi_toNat, hlow]
  congr 1
  split <;> omega

/-! ## What a resolver writes -/

/-- The modes that index past page zero compute an address. -/
theorem address_of_indexed {m : Mode} (hm : m ∈ [Mode.absx, .absy, .indy]) : m ∉ [Mode.imp, .acc, .rel] := by
  revert hm
  cases m <;> decide

section
variable (s : State) {o : Operand}

theorem State.zeroPagePointer_eq_ofNat (z : Byte) :
    s.zeroPagePointer z = BitVec.ofNat 16 ((s.readByte (BitVec.ofNat 16 ((z.toNat + 1) % 256))).toNat * 256 +
      (s.readByte (BitVec.ofNat 16 z.toNat)).toNat) := by
  rw [State.zeroPagePointer, word_eq_ofNat, zext16_add_eq_ofNat, zext16_eq_ofNat]
  rfl

/-- The word at the pointer of the indirect mode (R50). -/
theorem State.effAddr_ind (ptr : Addr) :
    s.effAddr (.ind ptr) = BitVec.ofNat 16
      ((s.readByte (BitVec.ofNat 16
          (if ptr.toNat % 256 = 255 then ptr.toNat - 255 else ptr.toNat + 1))).toNat * 256 +
        (s.readByte ptr).toNat) := by
  rw [← samePageNext_eq_ofNat, ← word_eq_ofNat]
  rfl

/-- A mode that computes an address stores it, clears the sentinel and marks a page crossing (R19, R42 to R53). -/
theorem State.resolve_of_address (hm : o.mode ∉ [Mode.imp, .acc, .rel]) :
    s.resolve o = { s with
      ea := s.effAddr o, eaAcc := false, pc := s.pc + BitVec.ofNat 16 o.width,
      penAddr := s.penAddr || s.crossesPage o } := by
  cases o with
  | imp | acc | rel => simp [Operand.mode] at hm
  | imm | zp | zpx | zpy | abs | absx | absy | ind | indx | indy => rfl

/-- Only the modes that index past page zero can cross a page (R53). -/
theorem State.crossesPage_eq_false (hm : o.mode ∉ [Mode.absx, .absy, .indy]) : s.crossesPage o = false := by
  cases o with
  | absx | absy | indy => simp [Operand.mode] at hm
  | imp | acc | rel | imm | zp | zpx | zpy | abs | ind | indx => rfl

/-- Indexing crosses a page where the high byte of the sum differs from that of the base (R53). -/
theorem State.crossesPage_of_indexed (hm : o.mode ∈ [Mode.absx, .absy, .indy]) :
    s.crossesPage o = decide ((s.effAddr o).toNat / 256 ≠ (s.baseAddr o).toNat / 256) := by
  rw [← page_bne_page]
  cases o with
  | absx | absy | indy => rfl
  | imp | acc | rel | imm | zp | zpx | zpy | abs | ind | indx => simp [Operand.mode] at hm

/-- A resolver that computes its address without indexing past page zero (R42 to R47, R50, R51). -/
theorem State.resolve_of_direct {addr : Addr}
    (hm : o.mode ∉ [Mode.imp, .acc, .rel, .absx, .absy, .indy]) (haddr : s.effAddr o = addr) :
    s.resolve o = { s with ea := addr, eaAcc := false, pc := s.pc + BitVec.ofNat 16 o.width } := by
  rw [s.resolve_of_address (by simp_all), s.crossesPage_eq_false (by simp_all), Bool.or_false, haddr]

/-- A resolver that adds an index to a base address modulo 2^16 (R48, R49, R52; D2). -/
theorem State.resolve_of_indexed {base : Nat} {i : Byte} (hm : o.mode ∈ [Mode.absx, .absy, .indy])
    (hsum : s.effAddr o = s.baseAddr o + zext16 i) (hbase : (s.baseAddr o).toNat = base) :
    s.resolve o = { s with
      ea := BitVec.ofNat 16 (base + i.toNat), eaAcc := false, pc := s.pc + BitVec.ofNat 16 o.width,
      penAddr := s.penAddr || decide ((base + i.toNat) % 65536 / 256 ≠ base / 256) } := by
  rw [s.resolve_of_address (address_of_indexed hm), s.crossesPage_of_indexed hm, hsum, add_zext16_eq_ofNat, hbase,
    BitVec.toNat_ofNat]

end

/-! ## The statements about the resolvers -/

/-- Settles O23: the three modes without an address by definition, the others by the address they compute. -/
theorem directModesResolve : Obligations.DirectModesResolve := by
  intro s b h
  refine ⟨rfl, rfl, ?imm, ?zp, rfl, ?abs, rfl, rfl⟩
  case imm => exact s.resolve_of_direct (by simp [operandOf, Operand.mode]) rfl
  case zp => exact s.resolve_of_direct (by simp [operandOf, Operand.mode]) (zext16_eq_ofNat b)
  case abs => exact s.resolve_of_direct (by simp [operandOf, Operand.mode]) (word_eq_ofNat h b)

/-- Settles O24: the sum is taken on bytes, so it stays in page zero. -/
theorem zeroPageIndexedModesWrap : Obligations.ZeroPageIndexedModesWrap := by
  intro s b h
  constructor
  · exact s.resolve_of_direct (by simp [operandOf, Operand.mode]) (zext16_add_eq_ofNat b s.x)
  · exact s.resolve_of_direct (by simp [operandOf, Operand.mode]) (zext16_add_eq_ofNat b s.y)

/-- Settles O25: the base is the operand word or the page-zero pointer, read as a number. -/
theorem indexedModesAddTheIndex : Obligations.IndexedModesAddTheIndex := by
  intro s b h base pointed crosses
  have hpointed : (s.zeroPagePointer b).toNat = pointed := by
    rw [State.zeroPagePointer, word_toNat, zext16_add_eq_ofNat, zext16_eq_ofNat]
    rfl
  refine ⟨?absx, ?absy, ?indy⟩
  case absx => exact s.resolve_of_indexed (by simp [operandOf, Operand.mode]) rfl (word_toNat h b)
  case absy => exact s.resolve_of_indexed (by simp [operandOf, Operand.mode]) rfl (word_toNat h b)
  case indy => exact s.resolve_of_indexed (by simp [operandOf, Operand.mode]) rfl hpointed

/-- Settles O26: the catalog by its 256 rows, the resolver by the two addresses of its pointer. -/
theorem indirectModeStaysInThePage : Obligations.IndirectModeStaysInThePage := by
  refine ⟨by decide, ?_⟩
  intro s b h second
  have hb := b.isLt
  have hlast : b = 0xFF#8 ↔ (h.toNat * 256 + b.toNat) % 256 = 255 := by
    rw [← BitVec.toNat_inj, BitVec.toNat_ofNat]
    omega
  have hsecond : (if (word h b).toNat % 256 = 255 then (word h b).toNat - 255 else (word h b).toNat + 1) = second := by
    rw [word_toNat]
    simp only [second, hlast]
    split <;> omega
  refine s.resolve_of_direct (by simp [operandOf, Operand.mode]) ((s.effAddr_ind (word h b)).trans ?_)
  rw [hsecond, word_eq_ofNat h b]

/-- Settles O27: the pointer's place is a sum of bytes, and so is the place after it. -/
theorem indexedIndirectModeStaysInPageZero : Obligations.IndexedIndirectModeStaysInPageZero := by
  intro s b z
  have hz : (b + s.x).toNat = z := BitVec.toNat_add b s.x
  exact s.resolve_of_direct (by simp [operandOf, Operand.mode]) (hz ▸ s.zeroPagePointer_eq_ofNat (b + s.x))

/-- Settles O28: from a clear indicator, a resolver leaves exactly whether indexing crosses a page. -/
theorem pageCrossingIndicator : Obligations.PageCrossingIndicator := by
  intro s o hclear t
  have hpen : t.penAddr = s.crossesPage o := by rw [State.resolve_penAddr, hclear, Bool.false_or]
  have indexed (hm : o.mode ∈ [Mode.absx, .absy, .indy]) :
      t.penAddr = true ↔ t.ea.toNat / 256 ≠ (s.baseAddr o).toNat / 256 := by
    have hea : t.ea = s.effAddr o := (s.resolve_ea o (address_of_indexed hm)).1
    rw [hpen, hea, s.crossesPage_of_indexed hm, decide_eq_true_iff]
  refine ⟨?word, ?pointer, fun hm => hpen.trans (s.crossesPage_eq_false hm)⟩
  case word =>
    rintro w (rfl | rfl)
    · exact indexed (by simp [Operand.mode])
    · exact indexed (by simp [Operand.mode])
  case pointer =>
    rintro b rfl
    have hhigh : (s.baseAddr (.indy b)).toNat / 256 = (s.readByte (zext16 (b + 1))).toNat := by
      rw [← hi_toNat]
      exact congrArg BitVec.toNat (hi_word _ _)
    exact hhigh ▸ indexed (by simp [Operand.mode])

end Sys2Proof.Machine
end

section
/-! PROOFS. The memory rules of spec/20_memory.md R32 to R39: which bytes a handler changes, said once for all instructions, and the
statements about what an instruction, a fetch and the host see of a write. -/

namespace Sys2Proof.Machine

/-- `Put` after the resolver of an address writes the byte at that address and no other (R39). -/
theorem State.put_resolve_readByte (s : State) {o : Operand} (v : Byte) (b : Addr)
    (hm : o.mode ∉ [Mode.imp, .acc, .rel]) :
    ((s.resolve o).put v).readByte b = if b = s.effAddr o then v else s.readByte b := by
  obtain ⟨hea, hacc⟩ := s.resolve_ea o hm
  simp [State.put_readByte, hea, hacc]

@[simp] theorem State.branch_readByte (s : State) (cond : Bool) (b : Addr) :
    (s.branch cond).readByte b = s.readByte b := by
  simp only [State.readByte, s.branch_frame cond]

/-- A byte that a handler changes is the one at the effective address or one of those it pushes (R37, R39). -/
theorem handlerOf_readByte_ne {i : Instr} {r : State} {b : Addr}
    (h : (handlerOf i r).readByte b ≠ r.readByte b) :
    (i.handler ∈ memoryWriters ∧ r.eaAcc = false ∧ b = r.ea) ∨
      ∃ k : Nat, k < pushCount i.handler ∧ b = stackAddr (r.sp - BitVec.ofNat 8 k) := by
  cases i
  case asl | lsr | rol | ror | inc | dec | sta | stx | sty =>
    refine .inl ⟨by simp [Instr.handler, memoryWriters], ?_⟩
    by_contra hplace
    exact h (by simp [State.put_readByte, hplace])
  case pha | php =>
    right
    simp only [handlerOf_pha, handlerOf_php, State.readByte_push8] at h
    split_ifs at h with h0
    · exact ⟨0, by decide, by simpa using h0⟩
    · exact absurd rfl h
  case jsr =>
    right
    simp only [handlerOf_jsr, State.setPC_readByte, State.readByte_push16] at h
    split_ifs at h with h1 h0
    · exact ⟨1, by simp [Instr.handler, pushCount], h1⟩
    · exact ⟨0, by simp [Instr.handler, pushCount], by simpa using h0⟩
    · exact absurd rfl h
  case brk =>
    right
    simp only [handlerOf_brk, State.readByte_takeInterrupt] at h
    split_ifs at h with h2 h1 h0
    · exact ⟨2, by decide, h2⟩
    · exact ⟨1, by decide, h1⟩
    · exact ⟨0, by decide, by simpa using h0⟩
    · exact absurd rfl h
  case nopUndoc =>
    rw [handlerOf_nopUndoc] at h
    split at h <;> simp at h
  all_goals simp at h

/-- Settles O19: of the phases only the handler writes memory; where it writes at the effective address, its resolver has
stored one. -/
theorem memoryChangesOnlyWhereWritten : Obligations.MemoryChangesOnlyWhereWritten := by
  intro i s t addr h hne
  obtain ⟨op, hop, rfl⟩ := exec_eq_next h
  have hchange : (handlerOf i (s.beginStep.resolve i.operand)).readByte addr ≠
      (s.beginStep.resolve i.operand).readByte addr := by simpa using hne
  refine (handlerOf_readByte_ne hchange).imp ?operand ?push
  case operand =>
    rintro ⟨hwriter, hmem, haddr⟩
    have hplace : i.operand.mode ∉ [Mode.imp, .rel] :=
      mode_of_operandHandler hop ((by decide : memoryWriters ⊆ operandHandlers) hwriter)
    have hacc : i.operand.mode ≠ .acc := by
      intro hm
      have hform : i.operand = .acc := by
        revert hm
        cases i.operand <;> simp [Operand.mode]
      simp [hform] at hmem
    exact ⟨hwriter, hacc, haddr.trans (State.resolve_ea _ _ (by simp_all)).1⟩
  case push =>
    rintro ⟨k, hk, haddr⟩
    exact ⟨k, hk, by simpa using haddr⟩

/-- STA changes the byte at its effective address to `A` and no other byte (R127). -/
theorem readByte_of_exec_sta {o : Operand} {s t : State} (h : exec (.sta o) s = .next t) (b : Addr) :
    t.readByte b = if b = s.beginStep.effAddr o then s.a else s.readByte b := by
  obtain ⟨op, hop, rfl⟩ := exec_eq_next h
  have hm : o.mode ∉ [Mode.imp, .acc, .rel] := mode_of_addressHandler hop (by simp [Instr.handler, addressHandlers])
  rw [State.account_readByte, handlerOf_sta, Instr.operand, State.put_resolve_readByte _ _ _ hm, State.resolve_a]
  rfl

/-- Settles O56: the fetch reads the stored byte at `PC` and, at the two addresses after it, bytes STA left alone. -/
theorem storeIsSeenByTheNextFetch : Obligations.StoreIsSeenByTheNextFetch := by
  intro o s t h haddr
  have hnext : t.pc + 1 ≠ t.pc := by bv_omega
  have hlast : t.pc + 2 ≠ t.pc := by bv_omega
  simp only [State.fetchInstr, readByte_of_exec_sta h, haddr, if_true, if_neg hnext, if_neg hlast]

/-- Settles O59: the bounds check of the memory interface, then one write of the store. -/
theorem hostWriteIsBounded : Obligations.HostWriteIsBounded := by
  intro s address v
  constructor
  · intro hin
    exact ⟨_, if_pos hin, fun b => s.mem.read_write address b v, rfl⟩
  · intro hout
    exact if_neg (Nat.not_lt.mpr hout)

end Sys2Proof.Machine
end

section
/-! PROOFS. The stack, the subroutine instructions and JMP (spec/47_stack.md, spec/49_load_store_jump.md): what a completed instruction
keeps, by the handler it runs, and the statements about one instruction each. -/

namespace Sys2Proof

theorem lo_eq_ofNat (w : Addr) : lo w = BitVec.ofNat 8 w.toNat := by
  apply BitVec.eq_of_toNat_eq
  rw [lo_toNat, BitVec.toNat_ofNat]

theorem hi_eq_ofNat (w : Addr) : hi w = BitVec.ofNat 8 (w.toNat / 256) := by
  have := (hi w).isLt
  apply BitVec.eq_of_toNat_eq
  rw [BitVec.toNat_ofNat, ← hi_toNat, Nat.mod_eq_of_lt this]

end Sys2Proof

namespace Sys2Proof.Machine

/-! ## What a completed instruction keeps -/

section
variable {i : Instr} {s t : State} (h : exec i s = .next t)
include h

section
variable (k : Handler) (hk : i.handler = k)
include hk

/-- The registers whose lists of writers the handler is not on keep their values (R8, R11). -/
theorem regsKept_of_exec {except : List Reg} (hw : ∀ g ∈ [Reg.a, .x, .y, .sp], g ∉ except → k ∉ regWriters g) :
    RegsKept except s t := by
  intro g hg
  have hmem : g ∈ [Reg.a, .x, .y, .sp] := by cases g <;> decide
  exact (regsChangeOnlyUnderTheirWriters i s t g h).1 (hk ▸ hw g hmem hg)

/-- A handler that neither stores nor pushes keeps every byte of memory (R37, R39). -/
theorem memoryKept_of_exec (hw : k ∉ memoryWriters ∧ pushCount k = 0) : MemoryKept s t := by
  subst hk
  intro addr
  by_contra hne
  rcases memoryChangesOnlyWhereWritten i s t addr h hne with ⟨hstore, -⟩ | ⟨n, hpush, -⟩
  · exact hw.1 hstore
  · omega

end

variable {op : Byte} (hop : i.opcode = some op) (hrel : i.operand.mode ≠ .rel)
include hop hrel

/-- Outside the branches a step costs the base cycles of its row, and one more where a timing-sensitive handler meets a page
crossing (R67). -/
theorem charges_of_exec :
    Charges ((catalogRow op).baseCycles + (s.beginStep.crossesPage i.operand && t.penOp).toNat) s t := by
  obtain ⟨op', hop', rfl⟩ := exec_eq_next h
  obtain rfl : op = op' := by simpa [hop] using hop'
  obtain ⟨-, -, -, hpen, hi⟩ := handlerOf_scratch i (s.beginStep.resolve i.operand)
  constructor
  · simp [(handlerOf_cycles i _).2.2 hrel, hpen, Nat.add_assoc]
  · simp [hi]

/-- Outside the jumps, returns, BRK and the branches a step ends at the next instruction (R10). -/
theorem endsAfter_of_exec (hpc : i.handler ∉ pcWriters) :
    EndsAfter i.operand op (s.beginStep.crossesPage i.operand && t.penOp) s t := by
  refine ⟨?_, charges_of_exec h hop hrel⟩
  rw [otherInstrsAreSequential i s t h hpc, encode_of_opcode hop, List.length_cons, length_bytes, Nat.add_comm]

end

theorem storesByte_of_readByte {s t : State} {addr : Addr} {v : Byte}
    (h : ∀ b, t.readByte b = if b = addr then v else s.readByte b) : StoresByte addr v s t := by
  refine ⟨by rw [h, if_pos rfl], fun b hb => ?_⟩
  rw [h, if_neg (by simpa using hb)]

/-! ## Pushes and pulls of one byte -/

/-- Settles O41: one push, of `A` or of `P` with the break flag set. -/
theorem phaPhpPushOneByte : Obligations.PhaPhpPushOneByte := by
  intro s
  constructor
  · have h := exec_of_opcode (i := .pha) s rfl
    refine ⟨rfl, _, h, storesByte_of_readByte ?pushedA, by simp, regsKept_of_exec h .pha rfl (by decide), by simp,
      endsAfter_of_exec h rfl nofun (by decide)⟩
    case pushedA => simp [State.readByte_push8]
  · have h := exec_of_opcode (i := .php) s rfl
    refine ⟨rfl, _, h, storesByte_of_readByte ?pushedP, by simp, regsKept_of_exec h .php rfl (by decide), by simp,
      endsAfter_of_exec h rfl nofun (by decide)⟩
    case pushedP => simp [State.readByte_push8, State.pushedP, Flag.mask, Flag.index]

/-- Settles O42: one pull; PLA sets `Z` and `N` of the byte, PLP loads all of it and forces the constant flag. -/
theorem plaPlpPullOneByte : Obligations.PlaPlpPullOneByte := by
  intro s pulled
  have hpulled (o : Operand) : (s.beginStep.resolve o).pulled8 = pulled := by simp [State.pulled8, pulled]
  constructor
  · have h := exec_of_opcode (i := .pla) s rfl
    refine ⟨rfl, _, h, by simp [hpulled], by simp, zeroNegativeOf_intro (by simp [hpulled]) (by simp [hpulled]),
      regsKept_of_exec h .pla rfl (by decide), ⟨by simp, ?otherFlags⟩, memoryKept_of_exec h .pla rfl (by decide),
      endsAfter_of_exec h rfl nofun (by decide)⟩
    case otherFlags =>
      intro f hu hf
      simp_all
  · have h := exec_of_opcode (i := .plp) s rfl
    exact ⟨rfl, _, h, by simp [hpulled, Flag.mask, Flag.index], by simp, regsKept_of_exec h .plp rfl (by decide),
      memoryKept_of_exec h .plp rfl (by decide), endsAfter_of_exec h rfl nofun (by decide)⟩

/-! ## Subroutines and jumps -/

/-- Settles O43: the pushed word is the address after the operand, minus 1. -/
theorem jsrPushesAndJumps : Obligations.JsrPushesAndJumps := by
  intro target s last
  have h := exec_of_opcode (i := .jsr target) s rfl
  have hlast : s.pc + 1#16 + 2#16 - 1#16 = last := by simp only [last]; bv_omega
  have hread (b : Addr) : (handlerOf (.jsr target) (s.beginStep.resolve (.abs target))).readByte b =
      if b = stackAddr (s.sp - 1) then lo last else if b = stackAddr s.sp then hi last else s.readByte b := by
    simp [State.readByte_push16, Operand.width, Operand.mode, Mode.width, hlast]
  have hne : s.sp ≠ s.sp - 1 := by bv_omega
  refine ⟨?encoding, _, h, rfl, by simp, ?high, ?low, ?others, regsKept_of_exec h .jsr rfl (by decide), by simp,
    charges_of_exec h rfl nofun⟩
  case encoding => rw [← lo_eq_ofNat, ← hi_eq_ofNat]; rfl
  case high => exact (hread _).trans (by rw [if_neg (by rwa [stackAddr_inj]), if_pos rfl, hi_eq_ofNat])
  case low => exact (hread _).trans (by rw [if_pos rfl, lo_eq_ofNat])
  case others => exact fun b hb => (hread b).trans (by simp_all)

/-- Settles O44: the pulled word, read as a number, plus 1. -/
theorem rtsPullsAndAddsOne : Obligations.RtsPullsAndAddsOne := by
  intro s
  have h := exec_of_opcode (i := .rts) s rfl
  refine ⟨rfl, _, h, ?pc, by simp, regsKept_of_exec h .rts rfl (by decide), by simp,
    memoryKept_of_exec h .rts rfl (by decide), charges_of_exec h rfl nofun⟩
  case pc =>
    rw [BitVec.ofNat_add, ← word_eq_ofNat]
    simp [State.pulled16]

/-- Settles O55: the resolver leaves the target in `ea`; no penalty is marked, since neither mode crosses a page. -/
theorem jmpGoesToItsTarget : Obligations.JmpGoesToItsTarget := by
  intro w s second
  constructor
  · have h := exec_of_opcode (i := .jmp (.abs w)) s rfl
    exact ⟨rfl, _, h, rfl, regsKept_of_exec h .jmp rfl (by decide), by simp, memoryKept_of_exec h .jmp rfl (by decide),
      charges_of_exec h rfl nofun⟩
  · have h := exec_of_opcode (i := .jmp (.ind w)) s rfl
    exact ⟨rfl, _, h, s.beginStep.effAddr_ind w, regsKept_of_exec h .jmp rfl (by decide), by simp,
      memoryKept_of_exec h .jmp rfl (by decide), charges_of_exec h rfl nofun⟩

end Sys2Proof.Machine
end

section
/-! PROOFS. The decoder and the encoder (spec/30_encoding.md R55 to R64): what the decoder answers on every list of bytes, said once,
and the two round trips read off it. -/

namespace Sys2Proof

/-! ## The opcode byte -/

open Laws.OpcodeOfWellFormed in
/-- Exactly the well-formed terms have an opcode byte: the lemmas of Laws/PerInstr.lean gathered for every instruction. -/
theorem opcode_isSome : ∀ i : Instr, i.opcode.isSome = i.wf
  | .adc o => adc o | .sbc o => sbc o | .and o => and o | .ora o => ora o | .eor o => eor o
  | .asl o => asl o | .lsr o => lsr o | .rol o => rol o | .ror o => ror o
  | .inc o => inc o | .dec o => dec o | .inx => inx | .iny => iny | .dex => dex | .dey => dey
  | .cmp o => cmp o | .cpx o => cpx o | .cpy o => cpy o | .bit o => bit o
  | .bcc d => bcc d | .bcs d => bcs d | .beq d => beq d | .bne d => bne d
  | .bmi d => bmi d | .bpl d => bpl d | .bvc d => bvc d | .bvs d => bvs d
  | .pha => pha | .php => php | .pla => pla | .plp => plp
  | .jsr target => jsr target | .rts => rts | .rti => rti | .brk => brk
  | .tax => tax | .tay => tay | .txa => txa | .tya => tya | .tsx => tsx | .txs => txs
  | .sec => sec | .clc => clc | .sei => sei | .cli => cli | .sed => sed | .cld => cld | .clv => clv
  | .nop => nop | .nopUndoc op o => nopUndoc op o
  | .lda o => lda o | .ldx o => ldx o | .ldy o => ldy o
  | .sta o => sta o | .stx o => stx o | .sty o => sty o | .jmp o => jmp o

theorem wf_of_opcode {i : Instr} {op : Byte} (h : i.opcode = some op) : i.wf = true := by
  rw [← opcode_isSome, h, Option.isSome_some]

theorem exists_opcode_of_wf {i : Instr} (h : i.wf = true) : ∃ op, i.opcode = some op :=
  Option.isSome_iff_exists.mp ((opcode_isSome i).trans h)

/-- An undocumented no-op is encoded by its own byte, one of the 105, in the mode of that byte's row (R63). -/
theorem opcode_nopUndoc {b op : Byte} {o : Operand} :
    (Instr.nopUndoc b o).opcode = some op ↔ b = op ∧ op ∈ undocumentedBytes ∧ o.mode = (catalogRow op).mode := by
  simp only [Instr.opcode, Option.ite_none_right_eq_some, Bool.and_eq_true, beq_iff_eq, isUndocumented,
    List.contains_iff_mem, Option.some.injEq]
  constructor
  · rintro ⟨⟨hb, hmode⟩, rfl⟩
    exact ⟨rfl, hb, hmode.symm⟩
  · rintro ⟨rfl, hb, hmode⟩
    exact ⟨⟨hb, hmode.symm⟩, rfl⟩

/-! ## The operand and its bytes in a list -/

theorem mode_operandOf (m : Mode) (b1 b2 : Byte) : (operandOf m b1 b2).mode = m := by
  cases m <;> rfl

/-- An operand is read back from a list that starts with its bytes (R56). -/
theorem operandOf_bytes_append (o : Operand) (rest : List Byte) :
    operandOf o.mode ((o.bytes ++ rest).getD 0 0) ((o.bytes ++ rest).getD 1 0) = o := by
  cases o <;> simp [operandOf, Operand.mode, Operand.bytes]

/-- The operand read from a long enough list has the bytes at the head of the list (R55). -/
theorem bytes_operandOf_append_drop {m : Mode} {rest : List Byte} (h : m.width ≤ rest.length) :
    (operandOf m (rest.getD 0 0) (rest.getD 1 0)).bytes ++ rest.drop m.width = rest := by
  match m, rest, h with
  | .imp, _, _ | .acc, _, _ => rfl
  | .imm, _ :: _, _ | .zp, _ :: _, _ | .zpx, _ :: _, _ | .zpy, _ :: _, _ | .rel, _ :: _, _ | .indx, _ :: _, _
  | .indy, _ :: _, _ => rfl
  | .abs, _ :: _ :: _, _ | .absx, _ :: _ :: _, _ | .absy, _ :: _ :: _, _ | .ind, _ :: _ :: _, _ =>
    simp [operandOf, Operand.bytes, Mode.width]

/-! ## The instruction of three bytes -/

/-- An opcode byte and an operand determine the instruction: reading the instruction's own operand under its own opcode byte gives
the instruction back (R56, R61). -/
theorem decodeFields_of_opcode {i : Instr} {op b1 b2 : Byte} (hop : i.opcode = some op)
    (ho : operandOf (catalogRow op).mode b1 b2 = i.operand) : decodeFields op b1 b2 = i := by
  obtain ⟨hhandler, hmode⟩ := row_of_opcode hop
  rw [decodeFields, instrOf, ho, hhandler]
  cases i
  case bcc | bcs | beq | bne | bmi | bpl | bvc | bvs | jsr =>
    rw [hmode] at ho
    simp_all [Instr.handler, Instr.operand, Operand.mode, operandOf]
  case nop =>
    obtain rfl : 0xEA = op := Option.some.inj hop
    rfl
  case nopUndoc b o =>
    obtain ⟨rfl, hb, -⟩ := opcode_nopUndoc.mp hop
    exact if_neg (undocumented_row b (List.contains_iff_mem.mpr hb)).2
  all_goals rfl

/-- The operand of a decoded instruction is the one of its row's mode (R56, R60): where the instruction fixes the mode, so do all
the rows of its handler. -/
theorem operand_decodeFields (op b1 b2 : Byte) :
    (decodeFields op b1 b2).operand = operandOf (catalogRow op).mode b1 b2 := by
  obtain ⟨-, hmode⟩ := row_of_opcode (opcode_decodeFields op b1 b2)
  have hkept : ∀ m, operandOf m b1 b2 = operandOf (operandOf m b1 b2).mode b1 b2 := fun m => by rw [mode_operandOf]
  rw [hmode, decodeFields, instrOf]
  cases (catalogRow op).handler
  case adc | sbc | and | ora | eor | asl | lsr | rol | ror | inc | dec | cmp | cpx | cpy | bit
      | lda | ldx | ldy | sta | stx | sty | jmp => exact hkept _
  case nop =>
    by_cases hop : op = 0xEA
    · simp only [if_pos hop]; rfl
    · simp only [if_neg hop]; exact hkept _
  all_goals rfl

/-- The bytes past the operand are not looked at (R58). -/
theorem decodeFields_congr {op b1 b2 c1 c2 : Byte} (h1 : 0 < (catalogRow op).mode.width → b1 = c1)
    (h2 : 1 < (catalogRow op).mode.width → b2 = c2) : decodeFields op b1 b2 = decodeFields op c1 c2 := by
  have ho : operandOf (catalogRow op).mode b1 b2 = operandOf (catalogRow op).mode c1 c2 := by
    cases hm : (catalogRow op).mode <;> simp_all [operandOf, Mode.width]
  exact decodeFields_of_opcode (opcode_decodeFields op c1 c2) (ho.trans (operand_decodeFields op c1 c2).symm)

/-! ## The decoder -/

theorem Mode.width_le_two (m : Mode) : m.width ≤ 2 := by
  cases m <;> decide

/-- With the operand bytes of its row's mode after it, an opcode byte decodes, and exactly those bytes are consumed (R58, R62). -/
theorem decode_cons_of_width_le {op : Byte} {rest : List Byte} (h : (catalogRow op).mode.width ≤ rest.length) :
    decode (op :: rest) =
      .ok (decodeFields op (rest.getD 0 0) (rest.getD 1 0), rest.drop (catalogRow op).mode.width) := by
  simp only [decode]
  match hw : (catalogRow op).mode.width, rest, h with
  | 0, rest, _ =>
    have hread : decodeFields op 0 0 = decodeFields op (rest.getD 0 0) (rest.getD 1 0) :=
      decodeFields_congr (by omega) (by omega)
    exact congrArg (fun i => Except.ok (i, rest)) hread
  | 1, b1 :: rest, _ =>
    have hread : decodeFields op b1 0 = decodeFields op b1 (rest.getD 0 0) :=
      decodeFields_congr (fun _ => rfl) (by omega)
    exact congrArg (fun i => Except.ok (i, rest)) hread
  | 2, _ :: _ :: _, _ => rfl
  | n + 3, _, _ => exact absurd hw (by have := (catalogRow op).mode.width_le_two; omega)

theorem decode_cons_of_length_lt {op : Byte} {rest : List Byte} (h : rest.length < (catalogRow op).mode.width) :
    decode (op :: rest) = .error (.missingOperand op) := by
  simp only [decode]
  split
  case h_4 => rfl
  all_goals simp_all

/-- Whatever decodes was read from an opcode byte with enough bytes after it (R58, R62). -/
theorem decode_eq_ok {bytes rest : List Byte} {i : Instr} (h : decode bytes = .ok (i, rest)) :
    ∃ op tail, bytes = op :: tail ∧ (catalogRow op).mode.width ≤ tail.length ∧
      i = decodeFields op (tail.getD 0 0) (tail.getD 1 0) ∧ rest = tail.drop (catalogRow op).mode.width := by
  cases bytes with
  | nil => simp [decode] at h
  | cons op tail =>
    rcases Nat.lt_or_ge tail.length (catalogRow op).mode.width with hlt | hle
    · simp [decode_cons_of_length_lt hlt] at h
    · rw [decode_cons_of_width_le hle] at h
      obtain ⟨hi, hrest⟩ := Prod.mk.inj (Except.ok.inj h)
      exact ⟨op, tail, rfl, hle, hi.symm, hrest.symm⟩

/-- Settles O1: the bytes after the opcode byte start with those of the operand, so the operand is read back, and with its opcode
byte it determines the instruction. -/
theorem decodeOfEncode : Obligations.DecodeOfEncode := by
  intro i rest hwf
  obtain ⟨op, hop⟩ := exists_opcode_of_wf hwf
  obtain ⟨-, hmode⟩ := row_of_opcode hop
  have hwidth : (catalogRow op).mode.width = i.operand.bytes.length := by rw [hmode, length_bytes, Operand.width]
  have hread : operandOf (catalogRow op).mode ((i.operand.bytes ++ rest).getD 0 0)
      ((i.operand.bytes ++ rest).getD 1 0) = i.operand := by rw [hmode, operandOf_bytes_append]
  rw [encode_of_opcode hop, List.cons_append, decode_cons_of_width_le (by simp [hwidth]),
    decodeFields_of_opcode hop hread, hwidth, List.drop_left]

/-- Settles O2: a decoded instruction has the opcode byte it was read from, and the bytes of its operand are those consumed. -/
theorem encodeOfDecode : Obligations.EncodeOfDecode := by
  intro bytes rest i h
  obtain ⟨op, tail, rfl, hle, rfl, rfl⟩ := decode_eq_ok h
  have hop := opcode_decodeFields op (tail.getD 0 0) (tail.getD 1 0)
  refine ⟨wf_of_opcode hop, ?_⟩
  rw [encode_of_opcode hop, operand_decodeFields, List.cons_append, bytes_operandOf_append_drop hle]

/-- Settles O3: the decoder's two answers, by the length of the list; the row of a decoded instruction's opcode byte is its handler
and mode. -/
theorem decodeFollowsTheCatalog : Obligations.DecodeFollowsTheCatalog := by
  intro op rest
  refine ⟨fun hle => ⟨_, decode_cons_of_width_le hle, ?_⟩, decode_cons_of_length_lt⟩
  obtain ⟨hhandler, hmode⟩ := row_of_opcode (opcode_decodeFields op (rest.getD 0 0) (rest.getD 1 0))
  exact ⟨hhandler.symm, hmode.symm⟩

/-- Settles O5: a listed byte has a row of the NOP handler and is not 0xEA; a byte read as an undocumented no-op encodes it, so it is
listed. -/
theorem undocumentedBytesAreNoOps : Obligations.UndocumentedBytesAreNoOps := by
  refine ⟨rfl, by decide, fun op b1 b2 => ⟨fun hin => ?_, fun hout op' o h => ?_⟩⟩
  · have hop : (Instr.nopUndoc op (operandOf (catalogRow op).mode b1 b2)).opcode = some op :=
      opcode_nopUndoc.mpr ⟨rfl, hin, mode_operandOf _ b1 b2⟩
    exact ⟨decodeFields_of_opcode hop rfl, (row_of_opcode hop).1⟩
  · have hop := opcode_decodeFields op b1 b2
    rw [h] at hop
    exact hout (opcode_nopUndoc.mp hop).2.1

/-- Settles O4: each row is looked up, and its operand assembled low byte first. -/
theorem wordsDecodeAsTheCatalogSays : Obligations.WordsDecodeAsTheCatalogSays :=
  ⟨rfl, rfl, rfl, rfl, rfl, rfl, rfl, rfl⟩

end Sys2Proof
end

section
/-! PROOFS. The step of a decoded instruction (spec/30_encoding.md R65 to R68): it runs what stands at `PC`, it always completes, and
what it costs; the undocumented no-ops (spec/48_transfer_flag_nop.md R123). -/

namespace Sys2Proof.Machine

/-- Settles O7: the fetched instruction has the opcode byte it was fetched from, so its meaning completes. -/
theorem noStateBlocksTheStep : Obligations.NoStateBlocksTheStep :=
  fun s => ⟨_, exec_of_opcode s (opcode_decodeFields (s.readByte s.pc) _ _)⟩

/-- Settles O6: of three bytes the decoder reads the instruction that the step fetches. -/
theorem stepRunsTheDecodedInstr : Obligations.StepRunsTheDecodedInstr := by
  intro s i rest h
  refine ⟨(encodeOfDecode _ _ _ h).1, ?_⟩
  obtain ⟨op, tail, hbytes, -, rfl, -⟩ := decode_eq_ok h
  obtain ⟨rfl, rfl⟩ := List.cons.inj hbytes
  rfl

/-- Settles O11: outside the branches only the accounting charges cycles, and `pen_addr` ends as the resolver left it. -/
theorem cyclesAreBaseAndPenalty : Obligations.CyclesAreBaseAndPenalty := by
  intro i op s t hop hrel h
  rw [(row_of_opcode hop).2] at hrel
  obtain ⟨hcycles, -⟩ := charges_of_exec h hop hrel
  obtain ⟨-, -, -, hpen⟩ := onlyResolversWriteTheScratch i s t h
  have hcross : t.penAddr = s.beginStep.crossesPage i.operand := by simpa using hpen
  rw [hcycles, ← hcross, Nat.add_assoc]
  cases t.penAddr <;> cases t.penOp <;> rfl

/-- The handlers that set `pen_op` whatever the opcode byte (R66). -/
def timingSensitive : List Handler := [.adc, .sbc, .and, .ora, .eor, .lda, .ldx, .ldy, .cmp]

/-- `pen_op` after a handler (R66, R123). -/
theorem handlerOf_penOp {i : Instr} {r : State} (hr : r.penOp = false) :
    (handlerOf i r).penOp = true ↔
      i.handler ∈ timingSensitive ∨ ∃ op o, i = .nopUndoc op o ∧ op ∈ nopPenaltyBytes := by
  cases i
  case nopUndoc op o =>
    rw [handlerOf_nopUndoc]
    split <;> simp_all [Instr.handler, timingSensitive]
  all_goals simp [Instr.handler, timingSensitive, State.put_frame, State.branch_frame, hr]

/-- Settles O12: the fetch clears `pen_op`, and neither the resolver nor the accounting writes it. -/
theorem timingSensitiveHandlers : Obligations.TimingSensitiveHandlers := by
  intro i s t h
  obtain ⟨op, -, rfl⟩ := exec_eq_next h
  rw [State.account_penOp]
  exact handlerOf_penOp (by simp)

theorem penOp_of_exec_nopUndoc {op : Byte} {o : Operand} {s t : State} (h : exec (.nopUndoc op o) s = .next t) :
    t.penOp = decide (op ∈ [0x1C#8, 0x3C#8, 0x5C#8, 0x7C#8, 0xDC#8, 0xFC#8]) := by
  rw [Bool.eq_iff_iff, timingSensitiveHandlers _ s t h]
  simp [Instr.handler]

/-- The NOP handler has no row in the relative mode (R61). -/
theorem mode_of_nop_row : ∀ op : Byte, (catalogRow op).handler = .nop → (catalogRow op).mode ≠ .rel := by
  decide

/-- Settles O52: the handler writes at most `pen_op`, which it sets for the six bytes. -/
theorem undocumentedNopsDoNothing : Obligations.UndocumentedNopsDoNothing := by
  intro op o s hin hmode
  have hop : (Instr.nopUndoc op o).opcode = some op := opcode_nopUndoc.mpr ⟨rfl, hin, hmode⟩
  have hrel : o.mode ≠ .rel := hmode ▸ mode_of_nop_row op (row_of_opcode hop).1
  have hpc : Handler.nop ∉ pcWriters := by decide
  have h := exec_of_opcode s hop
  refine ⟨encode_of_opcode hop, _, h, regsKept_of_exec h .nop rfl (by decide), ?status,
    memoryKept_of_exec h .nop rfl (by decide), ?ends⟩
  case status =>
    rw [State.account_p, handlerOf_nopUndoc]
    split <;> simp
  case ends =>
    rw [Bool.and_comm, ← penOp_of_exec_nopUndoc h]
    exact endsAfter_of_exec h hop hrel hpc

end Sys2Proof.Machine
end

section
/-! PROOFS. ADC and SBC (spec/41_arithmetic.md R70 to R72): the adder in whole numbers, its overflow read as a rule about signs and
as one about the signed sum, and the two instructions as a step around the adder. -/

namespace Sys2Proof

/-- The opcode byte of a form that the "Encoding" line of an instruction lists; the line lists no mode twice. -/
theorem opcodeIn_of_mem {m : Mode} {op : Byte} {forms : List (Mode × Byte)} (hmodes : (forms.map Prod.fst).Nodup)
    (h : (m, op) ∈ forms) : opcodeIn m forms = some op := by
  obtain ⟨before, after, rfl⟩ := List.append_of_mem h
  rw [List.map_append, List.map_cons, List.nodup_append] at hmodes
  obtain ⟨-, -, hdistinct⟩ := hmodes
  have hfirst : ∀ form ∈ before, m ≠ form.1 := by
    rintro form hform rfl
    exact hdistinct _ (List.mem_map_of_mem hform) _ List.mem_cons_self rfl
  exact List.lookup_eq_some_iff.mpr ⟨before, after, rfl, by simpa using hfirst⟩

end Sys2Proof

namespace Sys2Proof.Machine

/-! ## The overflow expression -/

/-- The overflow expression is about signs: `A` and the addend have the same and the result has the other (R70). -/
theorem overflow_eq_signs (a m result : Byte) : overflow a m result = decide (a.msb = m.msb ∧ result.msb ≠ a.msb) := by
  have hmask : ∀ v : Byte, (v &&& 0x80#8 != 0) = v.msb := by decide
  rw [overflow, hmask, BitVec.msb_and, BitVec.msb_xor, BitVec.msb_xor]
  cases a.msb <;> cases m.msb <;> cases result.msb <;> rfl

/-- The overflow of a sum with carry is that of the signed sum (R70). -/
theorem overflow_ofNat_eq_signedSum (a m : Byte) (carry : Bool) :
    overflow a m (BitVec.ofNat 8 (a.toNat + m.toNat + carry.toNat)) =
      decide (a.toInt + m.toInt + carry.toNat < -128 ∨ 127 < a.toInt + m.toInt + carry.toNat) := by
  have ha := a.isLt
  have hm := m.isLt
  have hc := carry.toNat_le
  rw [overflow_eq_signs]
  simp only [msb_eq_decide, BitVec.toNat_ofNat, BitVec.toInt_eq_toNat_cond, decide_eq_decide, ne_eq]
  split_ifs <;> omega

/-! ## The adder in whole numbers -/

section
variable (s : State) (m : Byte)

theorem State.carry_le_one : s.carry ≤ 1 := (s.flag .c).toNat_le

/-- The carry out of the adder is bit 8 of the wide sum (R70). -/
theorem State.wideSum_testBit : (s.wideSum m).testBit 8 = decide (256 ≤ s.wideSum m) := by
  have ha := s.a.isLt
  have hm := m.isLt
  have hc := s.carry_le_one
  have hsum : s.wideSum m = s.a.toNat + m.toNat + s.carry := rfl
  rw [Nat.testBit_eq_decide_div_mod_eq, decide_eq_decide]
  omega

/-- Adding the complement is subtracting with borrow, offset by 256 (R72). -/
theorem State.wideSum_complement :
    (s.wideSum (m ^^^ 0xFF#8) : Int) = s.a.toNat - m.toNat - (1 - (s.flag .c).toNat) + 256 := by
  have hm := m.isLt
  have hnot : (m ^^^ 0xFF#8).toNat = 255 - m.toNat := by
    rw [show 0xFF#8 = BitVec.allOnes 8 from rfl, BitVec.xor_allOnes, BitVec.toNat_not]
  have hsum : s.wideSum (m ^^^ 0xFF#8) = s.a.toNat + (m ^^^ 0xFF#8).toNat + (s.flag .c).toNat := rfl
  omega

end

/-- From `s` to `t` the adder has added `m` and the carry into `A`: the wide sum's low byte, its bit 8 as the carry, the overflow and
`Z` and `N`; no other register, flag or byte of memory has changed (R70). -/
structure AddsToA (m : Byte) (s t : State) : Prop where
  sum : t.a.toNat = s.wideSum m % 256
  carry : t.flag .c = decide (256 ≤ s.wideSum m)
  zeroNegative : ZeroNegativeOf t.a t
  overflow : t.flag .v = overflow s.a m t.a
  regs : RegsKept [.a] s t
  flags : FlagsKept [.c, .z, .n, .v] s t
  memory : MemoryKept s t

/-- What `AddWithCarry(m)` does (R70), for any later state with the adder's registers, flags and memory. -/
theorem addsToA_of_same {m : Byte} {s t : State} (hreg : ∀ g, t.reg g = (s.addWithCarry m).reg g)
    (hflag : ∀ f, t.flag f = (s.addWithCarry m).flag f)
    (hmem : ∀ b, t.readByte b = (s.addWithCarry m).readByte b) : AddsToA m s t := by
  have ha : t.a = BitVec.ofNat 8 (s.wideSum m) := hreg .a
  refine ⟨?sum, ?carry, zeroNegativeOf_intro ?zero ?negative, ?overflow, ?regs, ⟨by simp [hflag], ?flags⟩, hmem⟩
  case sum => rw [ha, BitVec.toNat_ofNat]
  case carry => simp [hflag, State.wideSum_testBit]
  case zero | negative | overflow => simp [hflag, ha]
  case regs =>
    intro g hg
    rw [hreg]
    cases g with
    | a => simp at hg
    | x | y | sp => rfl
  case flags =>
    intro f hu hf
    simp_all

/-- Settles O29: the adder's own clauses, and its overflow read in both ways. -/
theorem adderCarryAndOverflow : Obligations.AdderCarryAndOverflow := by
  intro s m sum signedSum t
  have h : AddsToA m s t := addsToA_of_same (fun _ => rfl) (fun _ => rfl) (fun _ => rfl)
  have hexpression : overflow s.a m t.a = decide ((t.a ^^^ s.a) &&& (t.a ^^^ m) &&& 0x80#8 ≠ 0#8) := by
    rw [Bool.eq_iff_iff]
    simp [overflow]
  exact ⟨h.sum, h.carry, h.zeroNegative, h.overflow.trans (overflow_ofNat_eq_signedSum s.a m (s.flag .c)),
    h.overflow.trans hexpression, h.regs, h.flags, h.memory⟩

/-! ## The instructions -/

/-- An instruction whose handler is the adder on `f` of its operand value and the mark of a timing-sensitive instruction completes with
that and the carry added into `A`, and costs one cycle more where indexing crosses a page (R66, R67, R71, R72). -/
theorem exec_addsToA {i : Instr} {op : Byte} (f : Byte → Byte) (s : State) (hop : i.opcode = some op)
    (hi : i.handler ∈ operandHandlers)
    (hadd : ∀ r : State, handlerOf i r = (r.addWithCarry (f (r.operandValue i.operand))).setPenOp) :
    ∃ t, exec i s = .next t ∧ AddsToA (f (s.operandByte i.operand)) s t ∧
      EndsAfter i.operand op (s.beginStep.crossesPage i.operand) s t := by
  have h := exec_of_opcode s hop
  rw [hadd, s.operandValue_resolve _ (mode_of_operandHandler hop hi)] at h
  have hsum (m : Byte) : (s.beginStep.resolve i.operand).wideSum m = s.wideSum m := by
    simp [State.wideSum, State.carry]
  refine ⟨_, h, addsToA_of_same ?regs (by simp [hsum]) (by simp), ?ends⟩
  case regs => intro g; cases g <;> simp [State.reg, hsum]
  case ends => exact endsAfter_account (by simp) (by simp) (by simp) (by simp)

/-- Settles O30: the adder on the operand byte. -/
theorem adcAddsWithCarry : Obligations.AdcAddsWithCarry := by
  intro o op s hform m sum
  have hop : (Instr.adc o).opcode = some op := opcodeIn_of_mem (by decide) hform
  obtain ⟨t, h, hadds, hends⟩ :=
    exec_addsToA (fun v => v) s hop (by simp [Instr.handler, operandHandlers]) fun r => handlerOf_adc r o
  exact ⟨encode_of_opcode hop, t, h, hadds.sum, hadds.carry, hadds.zeroNegative,
    hadds.overflow.trans (overflow_eq_signs _ _ _), hadds.regs, hadds.flags, hadds.memory, hends⟩

/-- Settles O31: the adder on the complement of the operand byte, whose wide sum is the difference and 256. -/
theorem sbcSubtractsWithBorrow : Obligations.SbcSubtractsWithBorrow := by
  intro o op s hform m difference
  have hop : (Instr.sbc o).opcode = some op := opcodeIn_of_mem (by decide) hform
  obtain ⟨t, h, (hadds : AddsToA (m ^^^ 0xFF#8) s t), hends⟩ :=
    exec_addsToA (· ^^^ 0xFF#8) s hop (by simp [Instr.handler, operandHandlers]) fun r => handlerOf_sbc r o
  have hdifference : (s.wideSum (m ^^^ 0xFF#8) : Int) = difference + 256 := s.wideSum_complement m
  refine ⟨encode_of_opcode hop, t, h, ?sum, ?carry, hadds.zeroNegative, ?overflow, hadds.regs, hadds.flags,
    hadds.memory, hends⟩
  case sum =>
    have hsum := hadds.sum
    omega
  case carry =>
    rw [hadds.carry, decide_eq_decide]
    omega
  case overflow =>
    have hsign : (m ^^^ 0xFF#8).msb = !m.msb := by rw [BitVec.msb_xor]; exact Bool.xor_true _
    rw [hadds.overflow, overflow_eq_signs, decide_eq_decide, hsign, Bool.eq_not]

end Sys2Proof.Machine
end

section
/-! PROOFS. AND, ORA and EOR (spec/42_logical.md R74 to R76): when an instruction loads one register, said once for every handler, and
the three handlers as one that combines the operand byte into `A`. -/

namespace Sys2Proof.Machine

/-- When an instruction outside `pcWriters` loads `v` into `dest`, read off the state `r` its handler ends in: `r` holds `v` there with
its `Z` and `N`, has the other registers, the other flags and the memory of `s`, and marks the penalty (R8, R18, R65, R67). -/
theorem loadsRegister_of_handlerOf {i : Instr} {op v : Byte} {dest : Reg} {penalty : Bool} {s r : State}
    (hop : i.opcode = some op) (hrel : i.operand.mode ≠ .rel) (hpc : i.handler ∉ pcWriters)
    (hr : handlerOf i (s.beginStep.resolve i.operand) = r) (hdest : r.reg dest = v)
    (hregs : RegsKept [dest] s r) (hflag : ∀ f, r.flag f = (s.setZN v).flag f) (hmem : MemoryKept s r)
    (hpen : (s.beginStep.crossesPage i.operand && r.penOp) = penalty) :
    LoadsRegister i i.operand op penalty dest v s := by
  subst hr hpen
  have h := exec_of_opcode s hop
  refine ⟨encode_of_opcode hop, _, h, (State.account_reg _ _ _).trans hdest, zeroNegativeOf_intro ?zero ?negative,
    fun g hg => (State.account_reg _ _ _).trans (hregs g hg), ⟨?constant, ?otherFlags⟩, hmem,
    endsAfter_of_exec h hop hrel hpc⟩
  case zero | negative | constant => simp [hflag]
  case otherFlags =>
    intro f hu hf
    simp_all

/-- An instruction of the logical family with operation `combine` loads the combination of `A` and the operand byte into `A`, and
costs one cycle more where indexing crosses a page (R66, R67, R74 to R76). -/
theorem loadsRegister_of_logical {i : Instr} {op : Byte} (combine : Byte → Byte → Byte) (s : State)
    (hop : i.opcode = some op) (hi : i.handler ∈ [Handler.and, .ora, .eor])
    (hlogical : ∀ r : State, handlerOf i r = r.logical (combine r.a (r.operandValue i.operand))) :
    LoadsRegister i i.operand op (s.beginStep.crossesPage i.operand) .a (combine s.a (s.operandByte i.operand)) s := by
  have family : ∀ k ∈ [Handler.and, .ora, .eor], k ∈ operandHandlers ∧ k ∉ pcWriters := by decide
  obtain ⟨hoperand, hpc⟩ := family _ hi
  have hmode := mode_of_operandHandler hop hoperand
  have hrel : i.operand.mode ≠ .rel := fun hm => hmode (by simp [hm])
  have hr : handlerOf i (s.beginStep.resolve i.operand) =
      (s.beginStep.resolve i.operand).logical (combine s.a (s.operandByte i.operand)) := by
    rw [hlogical, s.operandValue_resolve _ hmode, State.resolve_a, State.beginStep_a]
  refine loadsRegister_of_handlerOf hop hrel hpc hr rfl ?regs (by simp [State.logical])
    (fun b => by simp [State.logical]) (Bool.and_true _)
  case regs =>
    intro g hg
    cases g with
    | a => simp at hg
    | x | y | sp => simp [State.logical, State.reg]

/-- Settles O32: the three handlers differ in the bitwise operation only. -/
theorem logicalInstrsCombineIntoA : Obligations.LogicalInstrsCombineIntoA := by
  intro o op s
  refine ⟨fun hform => ?and, fun hform => ?ora, fun hform => ?eor⟩
  case and =>
    have hop : (Instr.and o).opcode = some op := opcodeIn_of_mem (by decide) hform
    exact loadsRegister_of_logical (· &&& ·) s hop (by simp [Instr.handler]) fun _ => rfl
  case ora =>
    have hop : (Instr.ora o).opcode = some op := opcodeIn_of_mem (by decide) hform
    exact loadsRegister_of_logical (· ||| ·) s hop (by simp [Instr.handler]) fun _ => rfl
  case eor =>
    have hop : (Instr.eor o).opcode = some op := opcodeIn_of_mem (by decide) hform
    exact loadsRegister_of_logical (· ^^^ ·) s hop (by simp [Instr.handler]) fun _ => rfl

end Sys2Proof.Machine
end

section
/-! PROOFS. ASL, ROL, LSR and ROR (spec/43_shift_rotate.md R77 to R80): the results and the bit shifted out in whole numbers, the
write back of a result to its operand's place, and the four instructions as one shift. -/

namespace Sys2Proof.Machine

/-! ## The results in whole numbers -/

theorem aslResult_eq_ofNat (m : Byte) : aslResult m = BitVec.ofNat 8 (2 * m.toNat) := by
  apply BitVec.eq_of_toNat_eq
  rw [aslResult, BitVec.toNat_shiftLeft, BitVec.toNat_ofNat, Nat.shiftLeft_eq, Nat.mul_comm]

theorem lsrResult_eq_ofNat (m : Byte) : lsrResult m = BitVec.ofNat 8 (m.toNat / 2) := by
  have hm := m.isLt
  apply BitVec.eq_of_toNat_eq
  rw [lsrResult, BitVec.toNat_ushiftRight, BitVec.toNat_ofNat, Nat.shiftRight_eq_div_pow]
  omega

/-- A carry that enters at bits the value has clear is added to it (R79, R80). -/
theorem or_carry_eq_add {v bits : Byte} (hfree : v &&& bits = 0#8) (carry : Bool) :
    v ||| (if carry then bits else 0) = v + BitVec.ofNat 8 (bits.toNat * carry.toNat) := by
  cases carry with
  | false => simp
  | true => simp [BitVec.add_eq_or_of_and_eq_zero v bits hfree]

theorem rolResult_eq_ofNat (m : Byte) (carry : Bool) :
    rolResult m carry = BitVec.ofNat 8 (2 * m.toNat + carry.toNat) := by
  have hfree : ∀ v : Byte, aslResult v &&& 0x01#8 = 0#8 := by decide
  calc rolResult m carry
    _ = aslResult m + BitVec.ofNat 8 (1 * carry.toNat) := or_carry_eq_add (hfree m) carry
    _ = BitVec.ofNat 8 (2 * m.toNat + carry.toNat) := by rw [aslResult_eq_ofNat, ← BitVec.ofNat_add, Nat.one_mul]

theorem rorResult_eq_ofNat (m : Byte) (carry : Bool) :
    rorResult m carry = BitVec.ofNat 8 (m.toNat / 2 + 128 * carry.toNat) := by
  have hfree : ∀ v : Byte, lsrResult v &&& 0x80#8 = 0#8 := by decide
  calc rorResult m carry
    _ = lsrResult m + BitVec.ofNat 8 (128 * carry.toNat) := or_carry_eq_add (hfree m) carry
    _ = BitVec.ofNat 8 (m.toNat / 2 + 128 * carry.toNat) := by rw [lsrResult_eq_ofNat, ← BitVec.ofNat_add]

theorem getLsbD_seven_eq_decide (m : Byte) : m.getLsbD 7 = decide (128 ≤ m.toNat) := msb_eq_decide m

theorem getLsbD_zero_eq_decide (m : Byte) : m.getLsbD 0 = decide (m.toNat % 2 = 1) := by
  rw [BitVec.getLsbD, Nat.testBit_zero]

/-! ## The write back -/

/-- The accumulator mode sets the sentinel (R19, R41). -/
theorem State.resolve_eaAcc_of_acc (s : State) {o : Operand} (hm : o.mode = .acc) : (s.resolve o).eaAcc = true := by
  cases o
  case acc => rfl
  all_goals cases hm

/-- An instruction whose handler, run on what the resolver leaves, sets `P` only (in `r`) and then puts `v` in its operand's place
completes with `v` written back, and marks no penalty (R39, R66, R67). -/
theorem writesBack_of_put {i : Instr} {op v : Byte} {flags : List Flag} {s r : State} (hop : i.opcode = some op)
    (hi : i.handler ∈ operandHandlers) (hput : handlerOf i (s.beginStep.resolve i.operand) = r.put v)
    (hr : r = { s.beginStep.resolve i.operand with p := r.p }) (hzn : ZeroNegativeOf v r) (hflags : FlagsKept flags s r) :
    WritesBack i i.operand op flags v s ((r.put v).account (catalogRow op).baseCycles) := by
  have h := exec_of_opcode s hop
  rw [hput] at h
  have hreg (g : Reg) : r.reg g = s.reg g := by
    rw [hr]
    cases g <;> simp [State.reg]
  have hread (b : Addr) : r.readByte b = s.readByte b := by
    rw [hr]
    exact s.beginStep.resolve_readByte i.operand b
  have hacc : r.eaAcc = (s.beginStep.resolve i.operand).eaAcc := by rw [hr]
  refine ⟨h, by simpa [ZeroNegativeOf] using hzn, by simpa [FlagsKept] using hflags, fun hm => ?accumulator,
    fun hm => ?memory, ?ends⟩
  case accumulator =>
    rw [State.resolve_eaAcc_of_acc _ hm] at hacc
    refine ⟨by simp [State.put_a, hacc], fun g hg => ?_, fun b => ?_⟩
    · rw [State.account_reg, State.put_reg _ _ (.inr (by simpa using hg)), hreg]
    · simp [State.put_readByte, hacc, hread]
  case memory =>
    obtain ⟨hplace, hsentinel⟩ := s.beginStep.resolve_ea i.operand (by simpa [hm] using mode_of_operandHandler hop hi)
    have hea : r.ea = s.beginStep.effAddr i.operand := by rw [← hplace, hr]
    rw [hsentinel] at hacc
    refine ⟨fun g _ => ?_, storesByte_of_readByte fun b => ?_⟩
    · rw [State.account_reg, State.put_reg _ _ (.inl hacc), hreg]
    · simp [State.put_readByte, hacc, hea, hread]
  case ends =>
    obtain ⟨-, -, -, -, hpc, -, hpen, hcycles, hinstret⟩ := r.put_frame v
    refine endsAfter_account ?_ ?_ ?_ ?_
    · rw [hpc, hr]; simp
    · rw [hcycles, hr]; simp
    · rw [hinstret, hr]; simp
    · rw [hpen, hr]; simp

/-! ## The instructions -/

/-- An instruction that shifts its operand value, with `out` as the bit shifted out and `result` of the value and the old carry, is
encoded by its opcode byte and writes that result back (R77 to R80). -/
theorem encode_and_writesBack_of_shift {i : Instr} {op : Byte} (out : Byte → Bool) (result : Byte → Bool → Byte) (s : State)
    (hop : i.opcode = some op) (hi : i.handler ∈ operandHandlers)
    (hshift : ∀ r : State, handlerOf i r =
      r.shiftTo (out (r.operandValue i.operand)) (result (r.operandValue i.operand) (r.flag .c))) :
    encode i = op :: i.operand.bytes ∧
      ∃ t, WritesBack i i.operand op [.c, .z, .n] (result (s.operandByte i.operand) (s.flag .c)) s t ∧
        t.flag .c = out (s.operandByte i.operand) := by
  have hput := hshift (s.beginStep.resolve i.operand)
  rw [s.operandValue_resolve _ (mode_of_operandHandler hop hi), State.resolve_flag, State.beginStep_flag] at hput
  refine ⟨encode_of_opcode hop, _,
    writesBack_of_put hop hi hput rfl (zeroNegativeOf_intro (by simp) (by simp)) ⟨by simp, ?otherFlags⟩, by simp⟩
  case otherFlags =>
    intro f hu hf
    simp_all

/-- Settles O33: twice the operand byte, and the old carry for ROL. -/
theorem leftShiftsAndRotates : Obligations.LeftShiftsAndRotates := by
  intro o op s
  refine ⟨fun hform => ?asl, fun hform => ?rol⟩
  case asl =>
    have hop : (Instr.asl o).opcode = some op := opcodeIn_of_mem (by decide) hform
    rw [← aslResult_eq_ofNat, ← getLsbD_seven_eq_decide]
    exact encode_and_writesBack_of_shift (·.getLsbD 7) (fun m _ => aslResult m) s hop
      (by simp [Instr.handler, operandHandlers]) fun _ => rfl
  case rol =>
    have hop : (Instr.rol o).opcode = some op := opcodeIn_of_mem (by decide) hform
    rw [← rolResult_eq_ofNat, ← getLsbD_seven_eq_decide]
    exact encode_and_writesBack_of_shift (·.getLsbD 7) rolResult s hop
      (by simp [Instr.handler, operandHandlers]) fun _ => rfl

/-- Settles O34: half the operand byte, and 128 for ROR where the old carry is set. -/
theorem rightShiftsAndRotates : Obligations.RightShiftsAndRotates := by
  intro o op s
  refine ⟨fun hform => ?lsr, fun hform => ?ror⟩
  case lsr =>
    have hop : (Instr.lsr o).opcode = some op := opcodeIn_of_mem (by decide) hform
    rw [← lsrResult_eq_ofNat, ← getLsbD_zero_eq_decide]
    exact encode_and_writesBack_of_shift (·.getLsbD 0) (fun m _ => lsrResult m) s hop
      (by simp [Instr.handler, operandHandlers]) fun _ => rfl
  case ror =>
    have hop : (Instr.ror o).opcode = some op := opcodeIn_of_mem (by decide) hform
    rw [← rorResult_eq_ofNat, ← getLsbD_zero_eq_decide]
    exact encode_and_writesBack_of_shift (·.getLsbD 0) rorResult s hop
      (by simp [Instr.handler, operandHandlers]) fun _ => rfl

end Sys2Proof.Machine
end

section
/-! PROOFS. INC, DEC, INX, INY, DEX and DEY (spec/44_incdec.md R81 to R86): the steps by 1 in whole numbers, the write of one register
with its `Z` and `N` said once for every register, and the two memory instructions as one write back. -/

namespace Sys2Proof

theorem add_one_eq_ofNat (m : Byte) : m + 1#8 = BitVec.ofNat 8 (m.toNat + 1) := by
  rw [BitVec.ofNat_add, BitVec.ofNat_toNat, BitVec.setWidth_eq]

/-- Subtracting 1 is adding 255 modulo 256. -/
theorem sub_one_eq_ofNat (m : Byte) : m - 1#8 = BitVec.ofNat 8 (m.toNat + 255) := by
  rw [BitVec.ofNat_add, BitVec.ofNat_toNat, BitVec.setWidth_eq, BitVec.sub_eq_add_neg]
  rfl

end Sys2Proof

namespace Sys2Proof.Machine

/-! ## The instructions on memory -/

/-- An instruction that replaces its operand value by `f` of it and sets `Z` and `N` of the result is encoded by its opcode byte and
writes that result back (R81, R82). -/
theorem encode_and_writesBack_of_setZN {i : Instr} {op : Byte} (f : Byte → Byte) (s : State) (hop : i.opcode = some op)
    (hi : i.handler ∈ operandHandlers)
    (hstep : ∀ r : State, handlerOf i r =
      (r.setZN (f (r.operandValue i.operand))).put (f (r.operandValue i.operand))) :
    encode i = op :: i.operand.bytes ∧ ∃ t, WritesBack i i.operand op [.z, .n] (f (s.operandByte i.operand)) s t := by
  have hput := hstep (s.beginStep.resolve i.operand)
  rw [s.operandValue_resolve _ (mode_of_operandHandler hop hi)] at hput
  refine ⟨encode_of_opcode hop, _,
    writesBack_of_put hop hi hput rfl (zeroNegativeOf_intro (by simp) (by simp)) ⟨by simp, ?otherFlags⟩⟩
  case otherFlags =>
    intro g hu hg
    simp_all

/-- Settles O35: the operand byte plus 1, and plus 255 for DEC. -/
theorem memoryIncrementAndDecrement : Obligations.MemoryIncrementAndDecrement := by
  intro o op s
  refine ⟨fun hform => ?inc, fun hform => ?dec⟩
  case inc =>
    have hop : (Instr.inc o).opcode = some op := opcodeIn_of_mem (by decide) hform
    rw [← add_one_eq_ofNat]
    exact encode_and_writesBack_of_setZN (· + 1#8) s hop (by simp [Instr.handler, operandHandlers]) fun _ => rfl
  case dec =>
    have hop : (Instr.dec o).opcode = some op := opcodeIn_of_mem (by decide) hform
    rw [← sub_one_eq_ofNat]
    exact encode_and_writesBack_of_setZN (· - 1#8) s hop (by simp [Instr.handler, operandHandlers]) fun _ => rfl

/-! ## The instructions on an index register -/

/-- The write of one register, by its name (R8, R11). -/
def State.setReg (s : State) : Reg → Byte → State
  | .a => s.setA
  | .x => s.setX
  | .y => s.setY
  | .sp => s.setSP

section
variable (s : State) (dest : Reg) (v : Byte)

@[simp] theorem State.setReg_reg (g : Reg) : (s.setReg dest v).reg g = if g = dest then v else s.reg g := by
  cases dest <;> cases g <;> rfl

@[simp] theorem State.setReg_flag (f : Flag) : (s.setReg dest v).flag f = s.flag f := by cases dest <;> rfl

@[simp] theorem State.setReg_readByte (b : Addr) : (s.setReg dest v).readByte b = s.readByte b := by cases dest <;> rfl

@[simp] theorem State.setReg_penOp : (s.setReg dest v).penOp = s.penOp := by cases dest <;> rfl

end

/-- An instruction whose handler writes `v` to `dest` and sets `Z` and `N` of it, and does nothing else, loads `v` into `dest` and is
never late (R18, R66, R67). -/
theorem loadsRegister_of_setReg {i : Instr} {op v : Byte} {dest : Reg} {s : State} (hop : i.opcode = some op)
    (hrel : i.operand.mode ≠ .rel) (hpc : i.handler ∉ pcWriters)
    (hset : handlerOf i (s.beginStep.resolve i.operand) = ((s.beginStep.resolve i.operand).setReg dest v).setZN v) :
    LoadsRegister i i.operand op false dest v s :=
  loadsRegister_of_handlerOf hop hrel hpc hset (by simp) (fun g hg => by simp [List.ne_of_not_mem_cons hg])
    (by simp) (fun b => by simp) (by simp)

/-- Settles O36: each handler writes the stepped value to its register with `Z` and `N`. -/
theorem indexIncrementAndDecrement : Obligations.IndexIncrementAndDecrement := by
  intro s
  simp only [← add_one_eq_ofNat, ← sub_one_eq_ofNat]
  refine ⟨?inx, ?iny, ?dex, ?dey⟩
  case inx => exact loadsRegister_of_setReg (i := .inx) rfl nofun (by decide) rfl
  case iny => exact loadsRegister_of_setReg (i := .iny) rfl nofun (by decide) rfl
  case dex => exact loadsRegister_of_setReg (i := .dex) rfl nofun (by decide) rfl
  case dey => exact loadsRegister_of_setReg (i := .dey) rfl nofun (by decide) rfl

end Sys2Proof.Machine
end

section
/-! PROOFS. CMP, CPX, CPY and BIT (spec/45_compare_bit.md R87 to R91): the flags of a compare and of the bit test in whole numbers, what
an instruction that only sets flags from its operand keeps, and the three compares as one. -/

namespace Sys2Proof.Machine

/-! ## The flags in whole numbers -/

/-- The sign of a difference of bytes is bit 7 of the difference modulo 256 (R87). -/
theorem msb_sub_eq_decide (r m : Byte) : (r - m).msb = decide (128 ≤ (r.toNat + 256 - m.toNat) % 256) := by
  have hm := m.isLt
  rw [msb_eq_decide, BitVec.toNat_sub, decide_eq_decide]
  omega

theorem getLsbD_six_eq_decide (m : Byte) : m.getLsbD 6 = decide (64 ≤ m.toNat % 128) := by
  rw [BitVec.getLsbD, Nat.testBit_eq_decide_div_mod_eq, decide_eq_decide]
  omega

/-! ## Instructions that only set flags -/

/-- The handlers that read their operand and write flags only (R87, R91). -/
def flagTestHandlers : List Handler := [.cmp, .cpx, .cpy, .bit]

/-- An instruction of `flagTestHandlers` completes with the flags its handler leaves, keeps every register and every byte of memory, and
is late where indexing crosses a page and its handler has marked it as timing-sensitive (R8, R39, R66, R67). -/
theorem exec_of_flagTest {i : Instr} {op : Byte} (s : State) (hop : i.opcode = some op)
    (hi : i.handler ∈ flagTestHandlers) :
    ∃ t, exec i s = .next t ∧ (∀ f, t.flag f = (handlerOf i (s.beginStep.resolve i.operand)).flag f) ∧
      RegsKept [] s t ∧ MemoryKept s t ∧ EndsAfter i.operand op
        (s.beginStep.crossesPage i.operand && (handlerOf i (s.beginStep.resolve i.operand)).penOp) s t := by
  have hplain : ∀ k ∈ flagTestHandlers, k ∈ operandHandlers ∧ k ∉ pcWriters ∧ k ∉ memoryWriters ∧ pushCount k = 0 ∧
      ∀ g ∈ [Reg.a, .x, .y, .sp], g ∉ [] → k ∉ regWriters g := by decide
  obtain ⟨hoperand, hpc, hstore, hpush, hregs⟩ := hplain _ hi
  have hrel : i.operand.mode ≠ .rel := fun hm => mode_of_operandHandler hop hoperand (by simp [hm])
  have h := exec_of_opcode s hop
  exact ⟨_, h, fun f => State.account_flag _ _ f, regsKept_of_exec h _ rfl hregs,
    memoryKept_of_exec h _ rfl ⟨hstore, hpush⟩, endsAfter_of_exec h hop hrel hpc⟩

/-! ## The compares -/

/-- An instruction of `flagTestHandlers` whose handler leaves the flags of `Compare` on register `g` and the operand value compares that
register of the state before the step with the operand byte (R87). -/
theorem compares_of_flag_eq {i : Instr} {op : Byte} {penalty : Bool} (g : Reg) (s : State) (hop : i.opcode = some op)
    (hi : i.handler ∈ flagTestHandlers)
    (hcompare : ∀ (r : State) (f : Flag), (handlerOf i r).flag f = (r.compare (r.reg g) (r.operandValue i.operand)).flag f)
    (hpen : (s.beginStep.crossesPage i.operand && (handlerOf i (s.beginStep.resolve i.operand)).penOp) = penalty) :
    Compares i i.operand op penalty (s.reg g) (s.operandByte i.operand) s := by
  subst hpen
  have hmode := mode_of_operandHandler hop ((by decide : flagTestHandlers ⊆ operandHandlers) hi)
  obtain ⟨t, h, hflag, hregs, hmem, hends⟩ := exec_of_flagTest s hop hi
  simp only [hcompare, s.operandValue_resolve _ hmode, State.resolve_reg, State.beginStep_reg] at hflag
  refine ⟨encode_of_opcode hop, t, h, ?carry, ?zero, ?negative, ⟨by simp [hflag], ?otherFlags⟩, hregs, hmem, hends⟩
  case carry => simp [hflag, BitVec.ule]
  case zero => simp [hflag, beq_eq_decide]
  case negative => simp [hflag, msb_sub_eq_decide]
  case otherFlags =>
    intro f hu hf
    simp_all

/-- Settles O37: `A` against the operand byte, in a handler that marks itself as timing-sensitive. -/
theorem cmpComparesA : Obligations.CmpComparesA := by
  intro o op s hform
  have hop : (Instr.cmp o).opcode = some op := opcodeIn_of_mem (by decide) hform
  exact compares_of_flag_eq .a s hop (by simp [Instr.handler, flagTestHandlers]) (fun _ _ => rfl) (Bool.and_true _)

/-- Settles O38: the compare of CMP on the index register, in handlers that are never late. -/
theorem cpxCpyCompareTheIndex : Obligations.CpxCpyCompareTheIndex := by
  intro o op s
  refine ⟨fun hform => ?cpx, fun hform => ?cpy⟩
  case cpx =>
    have hop : (Instr.cpx o).opcode = some op := opcodeIn_of_mem (by decide) hform
    exact compares_of_flag_eq .x s hop (by simp [Instr.handler, flagTestHandlers]) (fun _ _ => rfl) (by simp)
  case cpy =>
    have hop : (Instr.cpy o).opcode = some op := opcodeIn_of_mem (by decide) hform
    exact compares_of_flag_eq .y s hop (by simp [Instr.handler, flagTestHandlers]) (fun _ _ => rfl) (by simp)

/-! ## The bit test -/

/-- Settles O39: the flags of the bit test on the operand byte; `N` and `V` are its two top bits. -/
theorem bitTestsTheOperand : Obligations.BitTestsTheOperand := by
  intro o op s hform m
  have hop : (Instr.bit o).opcode = some op := opcodeIn_of_mem (by decide) hform
  have hm : (s.beginStep.resolve o).operandValue o = m :=
    s.operandValue_resolve o (mode_of_operandHandler hop (by simp [Instr.handler, operandHandlers]))
  obtain ⟨t, h, hflag, hregs, hmem, hends⟩ := exec_of_flagTest s hop (by simp [Instr.handler, flagTestHandlers])
  simp only [handlerOf_bit, Instr.operand, hm] at hflag
  refine ⟨encode_of_opcode hop, t, h, ?zero, ?negative, ?overflow, ⟨by simp [hflag], ?otherFlags⟩, hregs, hmem,
    by simpa [Instr.operand] using hends⟩
  case zero => simp [hflag, beq_eq_decide]
  case negative => simpa [hflag] using getLsbD_seven_eq_decide m
  case overflow => simpa [hflag] using getLsbD_six_eq_decide m
  case otherFlags =>
    intro f hu hf
    simp_all

end Sys2Proof.Machine
end

section
/-! PROOFS. The eight branches (spec/46_branch.md R92 to R100): the target and the page comparison of the branch helper in whole
numbers, and the branches as one, differing in the condition only. -/

namespace Sys2Proof

/-- Adding a sign-extended displacement is adding it as a signed number, modulo 2^16 (R92). -/
theorem add_sext16_eq_ofInt (w : Addr) (d : Byte) : w + sext16 d = BitVec.ofInt 16 (w.toNat + d.toInt) := by
  rw [BitVec.ofInt_add, BitVec.ofInt_natCast, BitVec.ofNat_toNat, BitVec.setWidth_eq]
  rfl

end Sys2Proof

namespace Sys2Proof.Machine

/-- What a taken branch does to `PC` and the cycle count after the resolver has left displacement `d`: the page compared with is that
of the next instruction (R92). -/
theorem State.branch_true_pc_and_cycles {r : State} {d : Byte} (hrel : r.rel = sext16 d) :
    let target := BitVec.ofInt 16 (r.pc.toNat + d.toInt)
    (r.branch true).pc = target ∧
      (r.branch true).cycles = r.cycles + if target.toNat / 256 = r.pc.toNat / 256 then 1 else 2 := by
  intro target
  have htarget : r.pc + r.rel = target := by rw [hrel, add_sext16_eq_ofInt]
  have hpage : page target ≠ page r.pc ↔ ¬ target.toNat / 256 = r.pc.toNat / 256 := by
    rw [← bne_iff_ne, page_bne_page, decide_eq_true_iff]
  rw [State.branch_true, htarget]
  refine ⟨rfl, ?_⟩
  rw [State.addCycles_cycles, State.setPC_cycles]
  simp only [hpage, ite_not]

/-- An instruction with a displacement whose handler is the branch helper on `polarity` of flag `f` is a branch taken where `polarity`
of that flag holds before the step: the resolver leaves the flags, the row has two base cycles, and the fetch has cleared `pen_op`
(R54, R61, R65, R92). -/
theorem branches_of_handlerOf {i : Instr} {op d : Byte} (f : Flag) (polarity : Bool → Bool) (s : State)
    (hop : i.opcode = some op) (ho : i.operand = .rel d)
    (hbranch : ∀ r : State, handlerOf i r = r.branch (polarity (r.flag f))) :
    Branches i op d (polarity (s.flag f)) s := by
  obtain ⟨-, -, -, hbase⟩ := baseCycles_bounds op
  rw [(row_of_opcode hop).2, ho] at hbase
  have hnext : (s.beginStep.resolve (.rel d)).pc = s.pc + 2 := by
    rw [State.resolve_pc, State.beginStep_pc, BitVec.add_assoc]
    rfl
  have h := exec_of_opcode s hop
  rw [hbranch, ho, State.resolve_flag, State.beginStep_flag, hbase rfl] at h
  generalize polarity (s.flag f) = taken at h ⊢
  refine ⟨by rw [encode_of_opcode hop, ho]; rfl, _, h, fun g _ => by simp, by simp [State.branch_frame], fun b => by simp,
    ?notTaken, ?taken⟩
  case notTaken =>
    rintro rfl
    exact ⟨hnext, by simp, by simp⟩
  case taken =>
    rintro rfl
    obtain ⟨hpc, hcycles⟩ := State.branch_true_pc_and_cycles (s.beginStep.resolve_rel_rel d)
    rw [hnext] at hpc hcycles
    refine ⟨hpc, ?cycles, by simp [State.branch_frame]⟩
    case cycles =>
      rw [State.account_cycles, hcycles]
      split <;> simp [State.branch_frame, *]

/-- Settles O40: the eight handlers differ in the flag and the polarity only. -/
theorem branchesTestOneFlag : Obligations.BranchesTestOneFlag := by
  intro d s
  refine ⟨?bcc, ?bcs, ?beq, ?bne, ?bmi, ?bpl, ?bvc, ?bvs⟩
  case bcc => exact branches_of_handlerOf .c not s rfl rfl (handlerOf_bcc · d)
  case bcs => exact branches_of_handlerOf .c id s rfl rfl (handlerOf_bcs · d)
  case beq => exact branches_of_handlerOf .z id s rfl rfl (handlerOf_beq · d)
  case bne => exact branches_of_handlerOf .z not s rfl rfl (handlerOf_bne · d)
  case bmi => exact branches_of_handlerOf .n id s rfl rfl (handlerOf_bmi · d)
  case bpl => exact branches_of_handlerOf .n not s rfl rfl (handlerOf_bpl · d)
  case bvc => exact branches_of_handlerOf .v not s rfl rfl (handlerOf_bvc · d)
  case bvs => exact branches_of_handlerOf .v id s rfl rfl (handlerOf_bvs · d)

end Sys2Proof.Machine
end

section
/-! PROOFS. The software interrupt and the two round trips over the stack (spec/47_stack.md R105 to R108, spec/60_exceptions.md R135,
R136): BRK and RTI as one instruction each, and RTS after JSR and RTI after BRK read off the statements about their two halves. -/

namespace Sys2Proof

/-- The two bytes a word is pushed as, read back as a number, are the word (R37). -/
theorem ofNat_of_pushed_bytes (w : Addr) :
    BitVec.ofNat 16 ((BitVec.ofNat 8 (w.toNat / 256)).toNat * 256 + (BitVec.ofNat 8 w.toNat).toNat) = w := by
  rw [← hi_eq_ofNat, ← lo_eq_ofNat, ← word_eq_ofNat, word_hi_lo]

end Sys2Proof

namespace Sys2Proof.Machine

/-! ## BRK and RTI -/

/-- Settles O46: the return address skips the byte after the opcode byte, and the three pushes go to three different
addresses. -/
theorem brkTakesTheInterrupt : Obligations.BrkTakesTheInterrupt := by
  intro s back
  have h := exec_of_opcode (i := .brk) s rfl
  have hback : s.pc + 1#16 + 1#16 = back := by simp only [back]; bv_omega
  have hread (b : Addr) : (handlerOf .brk (s.beginStep.resolve .imp)).readByte b =
      if b = stackAddr (s.sp - 2) then s.p ||| 0x10#8
      else if b = stackAddr (s.sp - 1) then lo back
      else if b = stackAddr s.sp then hi back
      else s.readByte b := by
    simp [State.readByte_takeInterrupt, State.pushedP, Flag.mask, Flag.index, Operand.width, Operand.mode, Mode.width,
      hback]
  have h01 : s.sp ≠ s.sp - 1#8 := by bv_omega
  have h02 : s.sp ≠ s.sp - 2#8 := by bv_omega
  have h12 : s.sp - 1#8 ≠ s.sp - 2#8 := by bv_omega
  refine ⟨rfl, _, h, ?vector, by simp, regsKept_of_exec h .brk rfl (by decide), by simp, ⟨by simp, ?otherFlags⟩,
    ?high, ?low, ?status, ?others, charges_of_exec h rfl nofun⟩
  case vector => simp [State.takeInterrupt_pc, word_eq_ofNat]
  case otherFlags =>
    intro f hu hf
    simp_all
  case high => exact (hread _).trans (by simp [stackAddr_inj, h01, h02, hi_eq_ofNat])
  case low => exact (hread _).trans (by simp [stackAddr_inj, h12, lo_eq_ofNat])
  case status => exact (hread _).trans (if_pos rfl)
  case others => exact fun b hb => (hread b).trans (by simp_all)

/-- Settles O47: the status is pulled first, then the address as it stands. -/
theorem rtiRestoresStatusAndPC : Obligations.RtiRestoresStatusAndPC := by
  intro s
  have h := exec_of_opcode (i := .rti) s rfl
  refine ⟨rfl, _, h, ?status, ?pc, by simp, regsKept_of_exec h .rti rfl (by decide),
    memoryKept_of_exec h .rti rfl (by decide), charges_of_exec h rfl nofun⟩
  case status => simp [State.pulled8, Flag.mask, Flag.index]
  case pc => simp [State.returnFromInterrupt_pc, word_eq_ofNat]

/-! ## The round trips -/

/-- Two steps that write no register but the stack pointer, and bring that back, keep every register. -/
theorem regsKept_of_sp_back {s t u : State} (hst : RegsKept [.sp] s t) (htu : RegsKept [.sp] t u) (hsp : u.sp = s.sp) :
    RegsKept [] s u := by
  intro g _
  by_cases hg : g = .sp
  · exact hg ▸ hsp
  · have hg : g ∉ [Reg.sp] := by simpa using hg
    exact (htu g hg).trans (hst g hg)

/-- Settles O45: RTS pulls the two bytes JSR pushed, the address of its own last byte, and adds 1. -/
theorem jsrThenRtsReturnsPastTheJsr : Obligations.JsrThenRtsReturnsPastTheJsr := by
  intro target s t h
  obtain ⟨-, t', h', -, hsp, hhigh, hlow, -, hregs, hp, -⟩ := jsrPushesAndJumps target s
  obtain rfl : t = t' := by simpa [h] using h'
  obtain ⟨-, u, hu, hpc, husp, huregs, hup, -⟩ := rtsPullsAndAddsOne t
  have h1 : t.sp + 1 = s.sp - 1 := by rw [hsp]; bv_omega
  have h2 : t.sp + 2 = s.sp := by rw [hsp]; bv_omega
  refine ⟨u, hu, ?pc, regsKept_of_sp_back hregs huregs (husp.trans h2), hup.trans hp⟩
  case pc =>
    rw [hpc, h1, h2, hhigh, hlow, BitVec.ofNat_add, ofNat_of_pushed_bytes, BitVec.add_assoc]
    rfl

/-- Settles O48: RTI pulls the three bytes BRK pushed: `P` with the break flag set, and the return address. -/
theorem brkThenRtiComesBack : Obligations.BrkThenRtiComesBack := by
  intro s t h
  obtain ⟨-, t', h', -, hsp, hregs, -, -, hhigh, hlow, hstatus, -⟩ := brkTakesTheInterrupt s
  obtain rfl : t = t' := by simpa [h] using h'
  obtain ⟨-, u, hu, hp, hpc, husp, huregs, -⟩ := rtiRestoresStatusAndPC t
  have h1 : t.sp + 1 = s.sp - 2 := by rw [hsp]; bv_omega
  have h2 : t.sp + 2 = s.sp - 1 := by rw [hsp]; bv_omega
  have h3 : t.sp + 3 = s.sp := by rw [hsp]; bv_omega
  refine ⟨u, hu, ?pc, ?status, regsKept_of_sp_back hregs huregs (husp.trans h3)⟩
  case pc => rw [hpc, h2, h3, hhigh, hlow, ofNat_of_pushed_bytes]
  case status =>
    rw [hp, h1, hstatus, BitVec.or_assoc]
    rfl

end Sys2Proof.Machine
end

section
/-! PROOFS. The transfers, the flag instructions and NOP (spec/48_transfer_flag_nop.md R109 to R122): the transfers with flags as loads of
one register, the flag instructions as one that writes flag `f`, and TXS and NOP as one step each. -/

namespace Sys2Proof.Machine

/-! ## The transfers -/

/-- Settles O49: the handlers of all but TXS write the source to its destination with `Z` and `N`; TXS writes `SP` alone. -/
theorem transfersCopyOneRegister : Obligations.TransfersCopyOneRegister := by
  intro s
  refine ⟨?tax, ?tay, ?txa, ?tya, ?tsx, ?txs⟩
  case tax => exact loadsRegister_of_setReg (i := .tax) rfl nofun (by decide) rfl
  case tay => exact loadsRegister_of_setReg (i := .tay) rfl nofun (by decide) rfl
  case txa => exact loadsRegister_of_setReg (i := .txa) rfl nofun (by decide) rfl
  case tya => exact loadsRegister_of_setReg (i := .tya) rfl nofun (by decide) rfl
  case tsx => exact loadsRegister_of_setReg (i := .tsx) rfl nofun (by decide) rfl
  case txs =>
    have h := exec_of_opcode (i := .txs) s rfl
    exact ⟨rfl, _, h, by simp, regsKept_of_exec h .txs rfl (by decide), by simp, memoryKept_of_exec h .txs rfl (by decide),
      endsAfter_of_exec h rfl nofun (by decide)⟩

/-! ## The flag instructions -/

@[simp] theorem State.setFlag_reg (s : State) (f : Flag) (v : Bool) (g : Reg) : (s.setFlag f v).reg g = s.reg g := by
  cases g <;> rfl

/-- An instruction without an operand whose handler writes `v` to flag `f`, not the constant flag, and does nothing else, sets that flag
to `v` and is never late (R13, R65, R67). -/
theorem setsFlag_of_setFlag {i : Instr} {op : Byte} {f : Flag} {v : Bool} (s : State) (hop : i.opcode = some op)
    (himp : i.operand = .imp) (hf : f ≠ .u) (hset : ∀ r : State, handlerOf i r = r.setFlag f v) :
    SetsFlag i op f v s := by
  have h := exec_of_opcode s hop
  rw [hset, himp] at h
  refine ⟨by rw [encode_of_opcode hop, himp]; rfl, _, h, by simp [hf], ⟨by simp, ?otherFlags⟩, fun g _ => by simp,
    fun b => by simp, endsAfter_account ?pc ?cycles ?instret ?penalty⟩
  case otherFlags =>
    intro g hu hg
    simp_all
  case pc | cycles | instret | penalty => simp

/-- Settles O50: the seven handlers differ in the flag and the value only. -/
theorem flagInstrsWriteOneFlag : Obligations.FlagInstrsWriteOneFlag := by
  intro s
  refine ⟨?sec, ?clc, ?sei, ?cli, ?sed, ?cld, ?clv⟩
  case sec => exact setsFlag_of_setFlag s rfl rfl nofun handlerOf_sec
  case clc => exact setsFlag_of_setFlag s rfl rfl nofun handlerOf_clc
  case sei => exact setsFlag_of_setFlag s rfl rfl nofun handlerOf_sei
  case cli => exact setsFlag_of_setFlag s rfl rfl nofun handlerOf_cli
  case sed => exact setsFlag_of_setFlag s rfl rfl nofun handlerOf_sed
  case cld => exact setsFlag_of_setFlag s rfl rfl nofun handlerOf_cld
  case clv => exact setsFlag_of_setFlag s rfl rfl nofun handlerOf_clv

/-! ## NOP -/

/-- Settles O51: the handler changes nothing, and the resolver marks no crossing without an operand. -/
theorem nopDoesNothing : Obligations.NopDoesNothing := by
  intro s
  have h := exec_of_opcode (i := .nop) s rfl
  obtain ⟨hpc, hcharges⟩ := endsAfter_of_exec h rfl nofun (by decide)
  refine ⟨rfl, _, h, regsKept_of_exec h .nop rfl (by decide), by simp, memoryKept_of_exec h .nop rfl (by decide), ?noCrossing,
    by simp, hpc, hcharges⟩
  case noCrossing => simp [Instr.operand, Operand.mode, State.crossesPage_eq_false]

end Sys2Proof.Machine
end

section
/-! PROOFS. The loads and stores (spec/49_load_store_jump.md R124 to R129): the three loads as one write of a register, the three stores as
one `Put`. Completion, the counters and the host's write of `PC` (spec/60_exceptions.md R131, R139, spec/70_reset_and_hazards.md R146,
R150): which terms have a next state, and the counters as an inert update. -/

namespace Sys2Proof.Machine

/-! ## Loads -/

@[simp] theorem State.setPenOp_reg (s : State) (g : Reg) : s.setPenOp.reg g = s.reg g := by cases g <;> rfl

/-- An instruction whose handler writes its operand value to `dest` with `Z` and `N` and marks itself as timing-sensitive loads the
operand byte into `dest`, and costs one cycle more where indexing crosses a page (R66, R67, R124 to R126). -/
theorem loadsRegister_of_load {i : Instr} {op : Byte} (dest : Reg) (s : State) (hop : i.opcode = some op)
    (hi : i.handler ∈ [Handler.lda, .ldx, .ldy])
    (hload : ∀ r : State, handlerOf i r =
      ((r.setReg dest (r.operandValue i.operand)).setZN (r.operandValue i.operand)).setPenOp) :
    LoadsRegister i i.operand op (s.beginStep.crossesPage i.operand) dest (s.operandByte i.operand) s := by
  have family : ∀ k ∈ [Handler.lda, .ldx, .ldy], k ∈ operandHandlers ∧ k ∉ pcWriters := by decide
  obtain ⟨hoperand, hpc⟩ := family _ hi
  have hmode := mode_of_operandHandler hop hoperand
  have hrel : i.operand.mode ≠ .rel := fun hm => hmode (by simp [hm])
  have hr := hload (s.beginStep.resolve i.operand)
  rw [s.operandValue_resolve _ hmode] at hr
  exact loadsRegister_of_handlerOf hop hrel hpc hr (by simp) (fun g hg => by simp [List.ne_of_not_mem_cons hg])
    (by simp) (fun b => by simp) (Bool.and_true _)

/-- Settles O53: the three handlers differ in the register only. -/
theorem loadsFillTheirRegister : Obligations.LoadsFillTheirRegister := by
  intro o op s
  refine ⟨fun hform => ?lda, fun hform => ?ldx, fun hform => ?ldy⟩
  case lda =>
    have hop : (Instr.lda o).opcode = some op := opcodeIn_of_mem (by decide) hform
    exact loadsRegister_of_load .a s hop (by simp [Instr.handler]) fun _ => rfl
  case ldx =>
    have hop : (Instr.ldx o).opcode = some op := opcodeIn_of_mem (by decide) hform
    exact loadsRegister_of_load .x s hop (by simp [Instr.handler]) fun _ => rfl
  case ldy =>
    have hop : (Instr.ldy o).opcode = some op := opcodeIn_of_mem (by decide) hform
    exact loadsRegister_of_load .y s hop (by simp [Instr.handler]) fun _ => rfl

/-! ## Stores -/

/-- An instruction whose handler puts register `src` in its operand's place stores that register at the effective address, writes no
register or flag, and is never late (R39, R66, R67, R127 to R129). -/
theorem storesRegister_of_put {i : Instr} {op : Byte} (src : Reg) (s : State) (hop : i.opcode = some op)
    (hi : i.handler ∈ [Handler.sta, .stx, .sty]) (hput : ∀ r : State, handlerOf i r = r.put (r.reg src)) :
    StoresRegister i i.operand op (s.reg src) s := by
  have family : ∀ k ∈ [Handler.sta, .stx, .sty], k ∈ addressHandlers ∧ k ∉ pcWriters ∧
      ∀ g ∈ [Reg.a, .x, .y, .sp], g ∉ [] → k ∉ regWriters g := by decide
  obtain ⟨haddress, hpc, hregs⟩ := family _ hi
  have hmode := mode_of_addressHandler hop haddress
  have hrel : i.operand.mode ≠ .rel := fun hm => hmode (by simp [hm])
  have h := exec_of_opcode s hop
  rw [hput, State.resolve_reg, State.beginStep_reg] at h
  refine ⟨encode_of_opcode hop, _, h, storesByte_of_readByte (s.beginStep.put_resolve_readByte _ · hmode),
    regsKept_of_exec h _ rfl hregs, by simp [State.put_frame], ?ends⟩
  case ends => simpa [State.put_frame] using endsAfter_of_exec h hop hrel hpc

/-- Settles O54: the three handlers differ in the register only. -/
theorem storesWriteTheirRegister : Obligations.StoresWriteTheirRegister := by
  intro o op s
  refine ⟨fun hform => ?sta, fun hform => ?stx, fun hform => ?sty⟩
  case sta =>
    have hop : (Instr.sta o).opcode = some op := opcodeIn_of_mem (by decide) hform
    exact storesRegister_of_put .a s hop (by simp [Instr.handler]) fun _ => rfl
  case stx =>
    have hop : (Instr.stx o).opcode = some op := opcodeIn_of_mem (by decide) hform
    exact storesRegister_of_put .x s hop (by simp [Instr.handler]) fun _ => rfl
  case sty =>
    have hop : (Instr.sty o).opcode = some op := opcodeIn_of_mem (by decide) hform
    exact storesRegister_of_put .y s hop (by simp [Instr.handler]) fun _ => rfl

/-! ## Completion -/

/-- Settles O8: a term has an opcode byte exactly where it is well-formed, and its opcode byte alone decides the answer. -/
theorem wellFormedInstrCompletes : Obligations.WellFormedInstrCompletes := by
  intro i s
  constructor
  · intro hwf
    obtain ⟨op, hop⟩ := exists_opcode_of_wf hwf
    exact ⟨_, exec_of_opcode s hop⟩
  · intro hwf
    have hnone : i.opcode = none := by simpa [hwf] using opcode_isSome i
    rw [exec_eq_runInstr, runInstr_of_no_opcode hnone]

/-! ## The counters -/

/-- The state with both counters grown. Every state is one whose counters are 0 with its counters grown, and unlike `withCounters`
growing commutes with what a step charges. -/
def State.addCounters (cycles instret : Nat) (s : State) : State :=
  { s with cycles := s.cycles + cycles, instret := s.instret + instret }

section
variable (c n : Nat)

variable (s : State)

theorem inert_addCounters : Inert (State.addCounters c n) := by
  constructor
  case addCycles =>
    intro s k
    simp only [State.addCounters, State.addCycles, Nat.add_right_comm]
  all_goals intros; rfl

/-- BRK reads the bytes it saves and its vector, not the counters (R108). -/
theorem State.takeInterrupt_addCounters :
    (s.addCounters c n).takeInterrupt = s.takeInterrupt.addCounters c n := by
  have hsaved : (((s.addCounters c n).advancePC 1).push16 ((s.addCounters c n).pc + 1)).push8
      (s.addCounters c n).pushedP = (((s.advancePC 1).push16 (s.pc + 1)).push8 s.pushedP).addCounters c n := rfl
  simp only [State.takeInterrupt, hsaved]
  rfl

/-- No handler looks at the counters it grows (R139). -/
theorem handlerOf_addCounters {i : Instr} {op : Byte} (hop : i.opcode = some op) (r : State) :
    handlerOf i (r.addCounters c n) = (handlerOf i r).addCounters c n := by
  by_cases hi : i.handler ∈ statusHandlers
  · cases i
    case brk => exact State.takeInterrupt_addCounters c n r
    case sei | cli | sed | cld | php | plp | rti => rfl
    all_goals simp [Instr.handler, statusHandlers] at hi
  · exact handlerOf_inert (inert_addCounters c n) hop ⟨fun _ => ⟨rfl, fun _ => rfl⟩, fun _ => rfl, fun _ => rfl⟩ hi

theorem State.resolve_addCounters (o : Operand) :
    (s.addCounters c n).resolve o = (s.resolve o).addCounters c n := by
  cases o <;> rfl

theorem State.account_addCounters (k : Nat) :
    (s.addCounters c n).account k = (s.account k).addCounters c n := by
  simp only [State.account, State.addCounters, Nat.add_right_comm]

variable {s}

/-- A step from grown counters ends in the same state with its counters grown by as much (R139, R150). -/
theorem step_addCounters {t : State} (h : step s = .next t) : step (s.addCounters c n) = .next (t.addCounters c n) := by
  obtain ⟨op, hop, rfl⟩ := exec_eq_next h
  have hfetch : (s.addCounters c n).fetchInstr = s.fetchInstr := rfl
  have hbegin : (s.addCounters c n).beginStep = s.beginStep.addCounters c n := rfl
  rw [step, hfetch, exec_of_opcode _ hop, hbegin, State.resolve_addCounters, handlerOf_addCounters c n hop,
    State.account_addCounters]

end

/-- Settles O21: both states are the one whose counters are 0, with its counters grown. -/
theorem countersAffectNothing : Obligations.CountersAffectNothing := by
  intro s t c n h
  obtain ⟨t₀, h₀⟩ := noStateBlocksTheStep (s.withCounters 0 0)
  have hcount : t₀.instret = 1 := (stepCountsOneInstr _ _ h₀).trans (Nat.zero_add 1)
  have grown (c n : Nat) : step (s.withCounters c n) = .next (t₀.addCounters c n) := by
    simpa [State.withCounters, State.addCounters] using step_addCounters c n h₀
  obtain rfl : t = t₀.addCounters s.cycles s.instret := Host.Outcome.next.inj (h.symm.trans (grown s.cycles s.instret))
  rw [grown]
  simp [State.withCounters, State.addCounters, hcount, Nat.add_comm]

/-! ## The host -/

/-- Settles O58: the host's write is one write of `PC`, of the address as a word. -/
theorem setProgramCounterWritesOnlyPC : Obligations.SetProgramCounterWritesOnlyPC :=
  fun s address => ⟨s.setPC (BitVec.ofNat 16 address), rfl, BitVec.toNat_ofNat address 16, rfl⟩

end Sys2Proof.Machine
end
